-- ==== Sys2Proof/Word.lean ====
section
/-! DEFINITION. The word types of the MQ-24: what the manual treats as bits or as counts that wrap. -/

namespace Sys2Proof

/-- One byte of a frame, message or record (R189). -/
abbrev Byte := BitVec 8

/-- A count of ticks on ET, 48 bits, wrapping (R1). -/
abbrev Tick := BitVec 48

/-- A phase, increment or phase accumulator, 32 bits, one turn = 2^32 (R80, R82). -/
abbrev Phase := BitVec 32

/-- A sequence number of the report store, modulo 2^32 (R144). -/
abbrev SeqNo := BitVec 32

end Sys2Proof
end

