-- ==== Sys2Proof/Syntax.lean ====
section
/-! DEFINITION. The steps of the MQ-24 as syntax: one constructor of `Instr` per row of spec/opcode_table.json.
A command of a port carries the port that gave it, its tag and the RAW fields of its payload, as a command frame
carries them (R190): codes and counts as numbers, so that a field outside its range can be written and refused. -/

namespace Sys2Proof

/-- The two command ports, and by the same names the owner of a run (R52, R189: CP 0, AP 1). -/
inductive Port
  | cp
  | ap
  deriving DecidableEq, Repr

/-- Fields of CONFIGURE INPUT (R20): polarity 0 active when high, 1 active when low. -/
structure InputArgs where
  input : Nat
  polarity : Nat
  tdb : Nat
  limit : Nat
  shared : Nat
  soe : Nat
  deriving DecidableEq, Repr

/-- The function field of CONFIGURE OUTPUT (R30); `which` 0 is 52a, 1 is 52b. -/
inductive OutputFuncArg
  | sequence
  | aux (breaker which : Nat)
  | other (code : Nat)
  deriving DecidableEq, Repr

/-- One setpoint entry of a state record (R37); `tau` absent is DC continuity off. -/
structure SetpointArg where
  mag : Nat
  angle : Int
  freq : Nat
  tau : Option Nat
  deriving DecidableEq, Repr

/-- A trigger condition in the order of R40. -/
inductive CondArg
  | input (i level : Nat)
  | remoteInput (node i level : Nat)
  | breaker (k which : Nat)
  | peer
  | advance
  | rampDone
  | other (code : Nat)
  deriving DecidableEq, Repr

/-- One trigger of a state record (R40): peer mode 0 LOCAL, 1 PEER_WAIT, 2 PEER_PREEMPT. -/
structure TriggerArg where
  cond : CondArg
  target : Nat
  mode : Nat
  deriving DecidableEq, Repr

/-- The ramp specification (R41): quantity 0 MAGNITUDE, 1 ANGLE, 2 FREQUENCY; `mask` one bit per channel. -/
structure RampArg where
  mask : Nat
  quantity : Nat
  delta : Int
  dwell : Nat
  maxSteps : Nat
  deriving DecidableEq, Repr

/-- A state record as WRITE STATE carries it (R35, R43): kind 0 STEADY, 1 RAMP, 2 END; a part that is absent is `none`. -/
structure RecordArg where
  kind : Nat
  setpoints : Option (Vector SetpointArg 10)
  anchor : Option Nat
  pattern : Option Nat
  actions : Option (Vector Nat 4)
  limit : Option (Nat × Nat)
  triggers : List TriggerArg
  ramp : Option RampArg
  deriving DecidableEq, Repr

/-- The status field of DECLARE CHANNEL (R76). -/
inductive DeclArg
  | ready (maximum : Nat)
  | fault
  | other (code : Nat)
  deriving DecidableEq, Repr

/-- Fields of SET CALIBRATION (R79). -/
structure CalArgs where
  channel : Nat
  gain : Int
  phaseTrim : Int
  offset : Int
  deriving DecidableEq, Repr

/-- A breaker source (R102): a local input or an input of a ring node. -/
inductive SourceArg
  | localInput (i : Nat)
  | remoteInput (node i : Nat)
  | other (code : Nat)
  deriving DecidableEq, Repr

/-- The mode field of CONFIGURE BREAKER (R102). -/
inductive ModeArg
  | simulated
  | feedback (i : Nat)
  | other (code : Nat)
  deriving DecidableEq, Repr

/-- Fields of CONFIGURE BREAKER (R102): pole selection 0 ALL, 1 A, 2 B, 3 C; `fail` is a trip number and a pole mask. -/
structure BreakerArgs where
  breaker : Nat
  trips : List (SourceArg × Nat)
  closes : List SourceArg
  opening : Nat
  closing : Nat
  scatter : Vector Nat 3
  mode : ModeArg
  fail : Option (Nat × Nat)
  out52a : Option Nat
  out52b : Option Nat
  assoc : Vector (List Nat) 3
  shared : Nat
  deriving DecidableEq, Repr

/-- An event that a measurement reference names (R123). -/
inductive RefArg
  | stateEntry (slot : Nat)
  | inputLocal (i level : Nat)
  | inputRemote (node i level : Nat)
  | breaker (k kind : Nat)
  | other (code : Nat)
  deriving DecidableEq, Repr

/-- The start reference of a measurement (R123): RUN_START, or an event with its occurrence. -/
inductive StartRefArg
  | runStart
  | onEvent (r : RefArg) (occurrence : Nat)
  deriving DecidableEq, Repr

/-- The stop reference field of a measurement (R123); `runStart` can be written and is refused. -/
inductive StopRefArg
  | runStart
  | onEvent (r : RefArg)
  deriving DecidableEq, Repr

/-- Fields of DEFINE MEASUREMENT (R123): kind 0 TIME, 1 VALUE, 2 NO_OPERATE, 3 NONE; a field the kind does not use is absent. -/
structure MeasArgs where
  index : Nat
  kind : Nat
  start : Option StartRefArg
  stop : Option StopRefArg
  time : Option (Nat × Nat)
  value : Option (Nat × Nat × Int × Nat)
  rel : Option Nat
  window : Option Nat
  notify : Nat
  deriving DecidableEq, Repr

/-- The start condition of ARM (R53). -/
inductive StartArg
  | command
  | atTime (seconds micros : Nat)
  | input (i level : Nat)
  | peer
  | other (code : Nat)
  deriving DecidableEq, Repr

/-- Fields of ARM (R53): positions 0 CLOSED, 1 OPEN; `mask` bit m enables M m. -/
structure ArmArgs where
  first : Nat
  start : StartArg
  nominal : Nat
  lock : Nat
  joint : Nat
  positions : Vector Nat 4
  mask : BitVec 32
  deriving DecidableEq, Repr

/-- One transaction on a port: the bytes clocked in, and how many of them had been by the instant at which the transaction was cut,
which counts only where it was (R178, R187, R188; log 52). -/
structure Transfer where
  bytes : List Byte
  byCut : Nat
  deriving DecidableEq, Repr

/-- The steps of the part. A command's first two operands are the port that gives it and the tag of its frame;
`estopN` is the level of ESTOP_N where the step judges that pin (log 1). -/
inductive Instr
  -- The Time Base
  | setReference (p : Port) (tag : Byte) (source : Nat)
  | clearTimeSuspect (p : Port) (tag : Byte)
  | readTime (p : Port) (tag : Byte)
  | setTime (p : Port) (tag : Byte) (seconds micros : Nat)
  | setTrim (p : Port) (tag : Byte) (trim : Int)
  -- Binary Inputs and Outputs
  | configureInput (p : Port) (tag : Byte) (a : InputArgs)
  | configureOutput (p : Port) (tag : Byte) (output : Nat) (f : OutputFuncArg)
  | setRestPattern (p : Port) (tag : Byte) (pattern : BitVec 8)
  | readInputs (p : Port) (tag : Byte)
  -- The State Table
  | writeState (p : Port) (tag : Byte) (slot : Nat) (r : RecordArg)
  | clearState (p : Port) (tag : Byte) (slot : Nat)
  | readState (p : Port) (tag : Byte) (slot : Nat)
  -- Waveform Synthesis and the Sample Link
  | declareChannel (p : Port) (tag : Byte) (channel : Nat) (d : DeclArg)
  | setCalibration (p : Port) (tag : Byte) (a : CalArgs)
  | readChannels (p : Port) (tag : Byte)
  -- Breaker Simulation
  | configureBreaker (p : Port) (tag : Byte) (a : BreakerArgs)
  | readBreakers (p : Port) (tag : Byte)
  -- Measurements and Assessment
  | defineMeasurement (p : Port) (tag : Byte) (a : MeasArgs)
  | readMeasurements (p : Port) (tag : Byte)
  -- Running a Test
  | arm (p : Port) (tag : Byte) (a : ArmArgs)
  | disarm (p : Port) (tag : Byte)
  | start (p : Port) (tag : Byte)
  | advance (p : Port) (tag : Byte)
  | abort (p : Port) (tag : Byte)
  | emergencyStop (p : Port) (tag : Byte)
  | readRun (p : Port) (tag : Byte)
  | clearInhibit (p : Port) (tag : Byte) (estopN : Bool)
  -- The Report Store
  | subscribe (p : Port) (tag : Byte)
  | unsubscribe (p : Port) (tag : Byte)
  | readRecords (p : Port) (tag : Byte) (size : Nat)
  | rewind (p : Port) (tag : Byte)
  | seek (p : Port) (tag : Byte) (seq : SeqNo)
  | eraseStore (p : Port) (tag : Byte)
  -- Linked Test Sets
  | configureRing (p : Port) (tag : Byte) (node enable : Nat)
  | readRing (p : Port) (tag : Byte)
  -- Command Ports and Notices
  | readNotices (p : Port) (tag : Byte)
  | routeNotice (p : Port) (tag : Byte) (kind route : Nat)
  | raiseTestNotice (p : Port) (tag : Byte) (value : BitVec 32)
  | restart (p : Port) (tag : Byte) (estopN : Bool)
  | transactionStart (p : Port)
  | transactionEnd (p : Port) (transfer : Transfer) (estopN : Bool)
  -- Reset and pins
  | resetAssert
  | coldStart (estopN : Bool)
  | estopNFall
  -- The clock's own events
  | referenceMark
  | trimCorrection
  | markWatchExpiry
  | holdoverExpiry
  | frameBoundary (slhold : Bool)
  | sampleFrameDelivery
  | slholdRelease
  | inputSample (levels : BitVec 16)
  | debounceAccept (i : Fin 16)
  | glitch (i : Fin 16)
  | chatterClear (i : Fin 16)
  | atTimeMet
  | runStart
  | transition
  | timeLimit
  | rampStep
  | poleParted (k : Fin 4)
  | poleClosed (k : Fin 4)
  | failToOpen (k : Fin 4)
  | openingDeadline (k : Fin 4)
  | failToClose (k : Fin 4)
  | forcedInterruption (c : Fin 10)
  | windowExpiry (m : Fin 32)
  -- The ring
  | beaconSend
  | memberTimeout (n : Fin 4)
  | lightGained
  | lightLost
  | beaconReceived (bytes : List Byte)
  | proposeReceived (bytes : List Byte)
  | acceptReceived (bytes : List Byte)
  | declineReceived (bytes : List Byte)
  | commitReceived (bytes : List Byte)
  | withdrawReceived (bytes : List Byte)
  | eventReceived (bytes : List Byte)
  | abortReceived (bytes : List Byte)
  | proposalTimeout
  | commitEntry
  | heldTriggerTaken
  deriving DecidableEq, Repr

end Sys2Proof
end

