-- ==== Sys2Proof/Decode.lean ====
section
/-! DEFINITION. The decoder of the table's words: no row of spec/opcode_table.json gives bits, so no word spells a command
(log 6). The command frames of the ports are read in Machine/Ports.lean and Machine/Payloads.lean. -/

namespace Sys2Proof

/-- The command that a word of the table spells: none, for every word. -/
def decodeTableWord (_nbits _w : Nat) : Option Instr := none

end Sys2Proof
end

