-- ==== Sys2Proof/Config.lean ====
section
/-! DEFINITION. What the manual leaves to the implementation, as free values: constants with no body, of which
nothing can be proved but what holds for every value. -/

namespace Sys2Proof

/-- FREE VALUE (log 9). The payload length with which a reply frame is sent when the fields its command's rule names
take more than the 240 bytes a payload can hold (R190, R152); the argument is the number of bytes they take.
The model brings it to at most 240. -/
opaque Config.longReply : Nat → Nat

/-- FREE VALUE (log 33). The count byte of a CHATTER_START record when the count of edges is 256, which one byte cannot
hold (R24 with L of 255, R194); the argument is the count, and the model brings the value to one byte. -/
opaque Config.longCount : Nat → Nat

/-- FREE VALUE (log 67). The four bytes in which a Tm outside the signed 32 bits of its field is written (R136, R194); the
argument is the Tm, and the model brings the value to four bytes. -/
opaque Config.longTm : Int → Nat

end Sys2Proof
end

