-- ==== Sys2Proof/Machine/Types.lean ====
section
/-! DEFINITION. The data the blocks of the MQ-24 hold and hand to one another: named values, state records, report
records, ring messages, sample frames, notices and replies. Plain data throughout. -/

namespace Sys2Proof.Machine

/-- The reference source (R6). -/
inductive RefSource
  | noSource
  | pps
  | ring
  deriving DecidableEq, Repr

/-- The discipline state (R9 to R12). -/
inductive Discipline
  | free
  | acquire
  | locked
  | holdover
  deriving DecidableEq, Repr

/-- A logical level (R19). -/
inductive Level
  | inactive
  | active
  deriving DecidableEq, Repr

/-- The run state (R51). -/
inductive RunState
  | idle
  | armed
  | running
  | inhibited
  deriving DecidableEq, Repr

/-- The reason of a close (R66). -/
inductive CloseReason
  | completed
  | aborted
  | estop
  | trap
  | limit
  | peerAbort
  | ringLost
  | restart
  deriving DecidableEq, Repr

/-- The result code of a reply (R181). -/
inductive ResultCode
  | ok
  | clamped
  | badFrame
  | badCommand
  | badField
  | state
  | active
  | notOwner
  | portRole
  | inhibited
  | noSpace
  | time
  | ring
  deriving DecidableEq, Repr

/-- The state of a pole (R104, chapter Breaker Simulation 6.2). -/
inductive PoleState
  | closed
  | opening
  | arcing
  | opened
  | closing
  deriving DecidableEq, Repr

/-- The nine breaker events (R117). -/
inductive BreakerEventKind
  | poleParted
  | poleOpen
  | poleClosed
  | breakerOpen
  | breakerClosed
  | failToOpen
  | failToClose
  | closeRefused
  | forcedInterruption
  deriving DecidableEq, Repr

/-- The reason of a refused close (R111). -/
inductive RefuseReason
  | notOpen
  | tripActive
  deriving DecidableEq, Repr

/-- The kinds of impairment (R72). -/
inductive ImpKind
  | timeQuality
  | streamSlip
  | saturation
  | channelFault
  | chatter
  | ringLoss
  | remoteTime
  deriving DecidableEq, Repr

/-- The outcome of a measurement (R138). -/
inductive MeasOutcome
  | pass
  | early
  | late
  | low
  | high
  | unexpected
  | voided
  | notOperated
  | notRun
  deriving DecidableEq, Repr

/-- The verdict of a run (R138). -/
inductive Verdict
  | pass
  | fail
  | inconclusive
  deriving DecidableEq, Repr

/-- The cause of a sequence trap (R48). -/
inductive TrapCause
  | emptySlot
  | channelUnavailable
  | range
  | noRing
  deriving DecidableEq, Repr

/-- The route of a notice kind (R185). -/
inductive Route
  | cp
  | ap
  | both
  | nowhere
  deriving DecidableEq, Repr

/-- The ring state (R161). -/
inductive RingState
  | down
  | forming
  | up
  deriving DecidableEq, Repr

/-- The peer mode of a trigger or proposal (R40). -/
inductive PeerMode
  | alone
  | wait
  | preempt
  deriving DecidableEq, Repr

/-- The cause of a TIME_EVENT record (R16). -/
inductive TimeCause
  | state
  | step
  | set
  | label
  | absent
  | suspectCleared
  deriving DecidableEq, Repr

/-- The kind of an INPUT_EVENT record (R28). -/
inductive InputEventKind
  | edge
  | resync
  | chatterStart
  | chatterEnd
  deriving DecidableEq, Repr

/-- A setpoint quantity (R41, R123). -/
inductive Quantity
  | magnitude
  | angle
  | frequency
  deriving DecidableEq, Repr

/-- A breaker entry action (R38). -/
inductive EntryAction
  | nothing
  | openBreaker
  | closeBreaker
  deriving DecidableEq, Repr

/-- The condition of a BREAKER trigger (R40). -/
inductive BreakerCond
  | allOpen
  | allClosed
  | anyPoleOpen
  deriving DecidableEq, Repr

/-- An instant given as ET and device time (in whole microseconds, R3). -/
structure Stamp where
  et : Tick
  dev : Nat
  deriving DecidableEq, Repr

/-- Time quality: the pair of discipline state and TIME SUSPECT (R13). -/
structure TimeQuality where
  disc : Discipline
  suspect : Bool
  deriving DecidableEq, Repr

/-! ### State records (R35 to R41) -/

structure Setpoint where
  mag : Nat
  angle : Int
  freq : Nat
  tau : Option Nat
  deriving DecidableEq, Repr

inductive Cond
  | input (i : Fin 16) (level : Level)
  | remoteInput (node : Fin 4) (i : Fin 16) (level : Level)
  | breaker (k : Fin 4) (c : BreakerCond)
  | peer
  | advance
  | rampDone
  deriving DecidableEq, Repr

structure Trigger where
  cond : Cond
  target : Fin 64
  mode : PeerMode
  deriving DecidableEq, Repr

structure RampSpec where
  mask : BitVec 10
  quantity : Quantity
  delta : Int
  dwell : Nat
  maxSteps : Nat
  deriving DecidableEq, Repr

/-- The parts of a STEADY record, which a RAMP record holds too (table of 3.2). -/
structure LiveBody where
  setpoints : Vector Setpoint 10
  anchor : Bool
  pattern : BitVec 8
  actions : Vector EntryAction 4
  limit : Option (Nat × Fin 64)
  triggers : List Trigger
  deriving DecidableEq, Repr

/-- A state record (R36). -/
inductive StateRecord
  | steady (b : LiveBody)
  | ramp (b : LiveBody) (r : RampSpec)
  | endState
  deriving DecidableEq, Repr

/-- Where the first offending field of a refused WRITE STATE lies (R43). -/
inductive FieldPos
  | payload
  | slot
  | kind
  | setpoint (channel : Fin 10)
  | setpoints
  | anchor
  | pattern
  | action
  | timeLimit
  | trigger (index : Nat)
  | ramp
  deriving DecidableEq, Repr

/-! ### The run (R51 to R72) -/

inductive StartCond
  | command
  | atTime (dev : Nat)
  | input (i : Fin 16) (level : Level)
  | peer
  deriving DecidableEq, Repr

/-- The options of a run (R53); a position is true for OPEN. -/
structure RunOptions where
  first : Fin 64
  start : StartCond
  nominal : Nat
  requireLock : Bool
  joint : Nat
  positions : Vector Bool 4
  mask : BitVec 32
  deriving DecidableEq, Repr

/-- What made an exit (R61): a trigger by index, or the time limit. -/
inductive ExitCause
  | trigger (index : Nat)
  | timeLimit
  deriving DecidableEq, Repr

/-- The cause of an entry, as STATE_ENTRY carries it (R65, R194). -/
inductive EntryCause
  | exit (c : ExitCause)
  | ringCommit
  | start
  deriving DecidableEq, Repr

structure PendingTransition where
  target : Fin 64
  cause : ExitCause
  boundary : Tick
  deriving DecidableEq, Repr

structure HeldTrigger where
  cause : ExitCause
  at' : Tick
  deriving DecidableEq, Repr

/-- An impairment interval (R71); the subject is a channel, an input or a node by its number, or none. -/
structure Interval where
  kind : ImpKind
  subject : Option Nat
  start : Tick
  stop : Option Tick
  deriving DecidableEq, Repr

/-! ### Breakers (R102 to R112) -/

inductive Source
  | localInput (i : Fin 16)
  | remoteInput (node : Fin 4) (i : Fin 16)
  deriving DecidableEq, Repr

/-- A trip source with its pole selection, one bit per pole (R102). -/
structure TripSource where
  source : Source
  poles : BitVec 3
  deriving DecidableEq, Repr

inductive BreakerMode
  | simulated
  | feedback (i : Fin 16)
  deriving DecidableEq, Repr

structure BreakerConfig where
  trips : List TripSource
  closes : List Source
  opening : Nat
  closing : Nat
  scatter : Vector Nat 3
  mode : BreakerMode
  fail : Option (Nat × BitVec 3)
  assoc : Vector (List (Fin 10)) 3
  shared : Bool
  deriving DecidableEq, Repr

/-- A trip remembered by a CLOSING pole (R110): which trip, and its number once counted. -/
structure RememberedTrip where
  serial : Nat
  number : Option Nat
  deriving DecidableEq, Repr

/-- A programmed failure to open that has still to fall due (R109). -/
structure PendingFailure where
  at' : Tick
  trip : Nat
  late : Bool
  deriving DecidableEq, Repr

structure Pole where
  state : PoleState
  pending : Option Tick
  late : Bool
  opTrip : Option Nat
  remembered : Option RememberedTrip
  failure : Option PendingFailure
  deriving DecidableEq, Repr

structure Breaker where
  cfg : BreakerConfig
  poles : Vector Pole 3
  trips : Nat
  closes : Nat
  serial : Nat
  deriving DecidableEq, Repr

/-- A published breaker event (R117). -/
structure BreakerEvent where
  k : Fin 4
  pole : Option (Fin 3)
  kind : BreakerEventKind
  at' : Tick
  trip : Option Nat
  late : Bool
  channel : Option (Fin 10)
  reason : Option RefuseReason
  feedback : Option Tick
  deriving DecidableEq, Repr

/-! ### Measurements (R123 to R136) -/

/-- An event a reference names; also the event MU is handed (R124). -/
inductive MuEvent
  | stateEntry (slot : Fin 64)
  | inputLocal (i : Fin 16) (level : Level)
  | inputRemote (node : Fin 4) (i : Fin 16) (level : Level)
  | breaker (k : Fin 4) (kind : BreakerEventKind)
  deriving DecidableEq, Repr

/-- An event that waits at MU for the frame boundary of its microsecond, with its reference instant and whether that rests on a
poor time quality (R124, R130). The model's own: DESIGN CHOICE, log 72. -/
structure WaitingEvent where
  event : MuEvent
  ref : Tick
  poor : Bool
  deriving DecidableEq, Repr

inductive StartRef
  | runStart
  | onEvent (e : MuEvent) (occurrence : Nat)
  deriving DecidableEq, Repr

inductive MeasKind
  | time (nominal tol rel : Nat)
  | value (channel : Fin 10) (q : Quantity) (expected : Int) (tol rel : Nat)
  | noOperate (window : Nat)
  deriving DecidableEq, Repr

/-- A measurement definition (R123); `notify` has one bit per outcome in the order of R138. -/
structure MeasDef where
  kind : MeasKind
  start : StartRef
  stop : MuEvent
  notify : BitVec 9
  deriving DecidableEq, Repr

inductive LiveState
  | inactive
  | waitingStart
  | timing
  | done
  deriving DecidableEq, Repr

/-- The deciding kind of a VOID outcome (R134, R136). -/
inductive Deciding
  | overflow
  | history
  | impairment (k : ImpKind)
  deriving DecidableEq, Repr

/-- A result (R136): `run` is the number of its run, `value` is Tm or the value read, `band` the band or W. The measurement and
its kind are those of the measurement that holds it; the determination instant is the record's alone (R194). -/
structure MeasResult where
  run : Nat
  outcome : MeasOutcome
  value : Option Int
  band : Nat
  start : Option Tick
  stop : Option Tick
  determined : Tick
  tq : TimeQuality
  deciding : Option Deciding
  deriving DecidableEq, Repr

structure Measurement where
  definition : Option MeasDef
  live : LiveState
  occ : Nat
  start : Option Tick
  stop : Option Tick
  expiry : Option Tick
  history : List (Tick × Int)
  truncated : Bool
  startPoor : Bool
  result : Option MeasResult
  deriving DecidableEq, Repr

/-! ### The ring (R159, R192) -/

/-- A proposal (R166); target `none` is START. -/
structure Proposal where
  proposer : Fin 4
  number : BitVec 8
  target : Option (Fin 64)
  mode : PeerMode
  deriving DecidableEq, Repr

/-- The contents of a beacon (R160). -/
structure Beacon where
  tq : TimeQuality
  source : RefSource
  dev : Nat
  runState : RunState
  joint : Nat
  deriving DecidableEq, Repr

/-- What an EVENT message reports (R173). -/
inductive SharedEvent
  | input (i : Fin 16) (level : Level)
  | breaker (k : Fin 4) (pole : Option (Fin 3)) (kind : BreakerEventKind)
  deriving DecidableEq, Repr

/-- The body of a ring message (R192). `undefined` is a body of one of the eight types that passes every check of R193
and holds a code to which no rule gives a meaning (log 20). -/
inductive MsgBody
  | beacon (b : Beacon)
  | propose (joint : Nat) (number : BitVec 8) (target : Option (Fin 64)) (mode : PeerMode)
  | accept (joint : Nat) (proposer : Fin 4) (number : BitVec 8)
  | decline (joint : Nat) (proposer : Fin 4) (number : BitVec 8)
  | commit (joint : Nat) (number : BitVec 8) (tc : Nat)
  | withdraw (joint : Nat) (number : BitVec 8)
  | event (e : SharedEvent) (dev : Nat) (tq : TimeQuality)
  | abort (joint : Nat) (cause : Option CloseReason)
  | undefined (type : Nat) (bytes : List Byte)
  deriving DecidableEq, Repr

structure Message where
  orig : Fin 4
  hop : Nat
  body : MsgBody
  deriving DecidableEq, Repr

/-! ### Report records (R143, R194) -/

structure RunCloseData where
  reason : CloseReason
  at' : Stamp
  active : Option (Fin 64)
  count : Nat
  outcomes : Vector Nat 9
  verdict : Verdict
  dropped : Nat
  overflow : Bool
  trips : Vector Nat 4
  closes : Vector Nat 4
  snapshot : Option (Vector (Vector PoleState 3) 4 × BitVec 8)
  deriving DecidableEq, Repr

structure TimeEventData where
  cause : TimeCause
  before : Discipline
  after : Discipline
  tq : TimeQuality
  e : Option Int
  dev : Nat
  seconds : Option (Nat × Nat)
  deriving DecidableEq, Repr

/-- The cause of a PEER_EVENT record with its cause fields (R176, R194). -/
inductive PeerInfo
  | ring (before after : RingState)
  | members (set : BitVec 4)
  | source (before after : Option (Fin 4))
  | proposed (p : Proposal)
  | accepted (p : Proposal)
  | declined (p : Proposal)
  | deferred (p : Proposal)
  | crossed (own other : Proposal) (stood coProposed : Bool)
  | committed (p : Proposal) (late : Bool) (tc : Nat) (boundary : Tick)
  | withdrawn (p : Proposal)
  | abort (joint : Nat) (orig : Fin 4) (cause : Option CloseReason)
  | remote (orig : Fin 4) (e : SharedEvent) (dev : Nat) (tq : TimeQuality)
  deriving DecidableEq, Repr

inductive RecordBody
  | runOpen (owner : Port) (options : RunOptions) (start : Stamp) (tq : TimeQuality)
  | runClose (d : RunCloseData)
  | measurementResult (m : Fin 32) (kind : MeasKind) (r : MeasResult)
  | impairment (kind : ImpKind) (subject : Option Nat) (start : Stamp)
  | trap (slot : Fin 64) (cause : TrapCause) (detail : Option Nat) (at' : Tick)
  | stateEntry (slot : Fin 64) (cause : EntryCause) (count : Nat) (at' : Tick)
  | inputEvent (kind : InputEventKind) (i : Fin 16) (level : Level) (b : Nat) (tFirst : Tick) (delay : Nat)
  | glitch (i : Fin 16) (level : Level) (b : Nat) (tFirst rejected : Tick)
  | breakerEvent (e : BreakerEvent)
  | timeEvent (d : TimeEventData)
  | peerEvent (i : PeerInfo)
  | startUp (warm : Bool) (at' : Stamp)
  deriving DecidableEq, Repr

/-- A committed record: its sequence number, the run number standing at its commit, and its body (R142). -/
structure Record where
  seq : SeqNo
  run : Nat
  body : RecordBody
  deriving DecidableEq, Repr

/-! ### The sample link (R96, R191) -/

/-- A sample frame as produced at its boundary; `seconds` is the low 16 bits of device seconds. `run` is the run number
standing at the boundary, which the frame on the link does not carry (R98, R101). -/
structure SampleFrame where
  seconds : BitVec 16
  micros : Nat
  runState : RunState
  active : Option (Fin 64)
  samples : Vector Int 10
  pattern : BitVec 8
  streamEnable : Bool
  run : Nat
  deriving DecidableEq, Repr

/-- A frame as delivered: it takes its number, and the held-frame flag, at delivery (R96, R97). -/
structure DeliveredFrame where
  number : BitVec 16
  held : Bool
  frame : SampleFrame
  deriving DecidableEq, Repr

/-! ### Channels (chapter 5) -/

inductive Declaration
  | undeclared
  | ready (maximum : Nat)
  | fault
  deriving DecidableEq, Repr

/-- The interruption state of a channel (5.7); a watch keeps its frame count and its parting instant. -/
inductive Interruption
  | conducting
  | watching (count : Nat) (since : Tick)
  | interrupted
  deriving DecidableEq, Repr

/-- An interruption that has still to be handed to the breaker simulator (R93, R94): natural, after the first
boundary at or after its instant, or forced at a boundary. -/
inductive Handover
  | natural (since : Tick)
  | forced (at' : Tick)
  deriving DecidableEq, Repr

structure Channel where
  decl : Declaration
  forced : Bool
  gain : Int
  phaseTrim : Int
  offset : Int
  mag : Nat
  angle : Int
  freq : Nat
  amp : Int
  phi : Phase
  inc : Phase
  acc : Phase
  dc : Int
  kq : Nat
  sLast : Int
  uncutLast : Int
  outLast : Int
  intr : Interruption
  saturated : Bool
  resume : Bool
  handover : Option Handover
  deriving DecidableEq, Repr

structure RampProgress where
  steps : Nat
  next : Tick
  ended : Bool
  deriving DecidableEq, Repr

/-! ### Inputs and outputs (chapter 2) -/

structure InputConfig where
  activeLow : Bool
  tdb : Nat
  limit : Nat
  shared : Bool
  soe : Bool
  deriving DecidableEq, Repr

/-- An open debounce candidate (R21). -/
structure Candidate where
  tFirst : Stamp
  lastChange : Tick
  bounces : Nat
  deriving DecidableEq, Repr

structure Input where
  cfg : InputConfig
  raw : Level
  stable : Level
  cand : Option Candidate
  edges : List Tick
  lastEdge : Option Tick
  chattering : Bool
  published : Level
  resample : Bool
  deriving DecidableEq, Repr

/-- The function of an output (R30): SEQUENCE, or 52a (`b52 = false`) or 52b (`b52 = true`) of a breaker. -/
inductive OutputFunc
  | sequence
  | aux (k : Fin 4) (b52 : Bool)
  deriving DecidableEq, Repr

/-! ### Notices (R182) -/

inductive NoticeKind
  | estop
  | trap
  | runState
  | channelState
  | measurement
  | breakerFault
  | timeState
  | ringState
  | spaceLow
  | reportReady
  | test
  deriving DecidableEq, Repr

/-- The source of an emergency stop (R69). -/
inductive EstopSource
  | pin
  | port (p : Port)
  deriving DecidableEq, Repr

/-- The detail word of a notice, by kind (R182). -/
inductive Detail
  | estop (source : EstopSource) (run : Nat)
  | trap (slot : Fin 64) (cause : TrapCause)
  | runState (state : RunState) (run : Nat) (last : Option CloseReason)
  | channelState (c : Fin 10) (decl : Declaration) (forced : Bool)
  | measurement (m : Fin 32) (outcome : MeasOutcome)
  | breakerFault (k : Fin 4) (pole : Fin 3) (kind : BreakerEventKind) (trip : Option Nat)
  | timeState (disc : Discipline) (suspect absent : Bool)
  | ringState (ring : RingState) (members : BitVec 4) (source : Option (Fin 4))
  | spaceLow (drop : Bool) (available dropped : Nat)
  | reportReady (newest : SeqNo)
  | test (value : BitVec 32)
  deriving DecidableEq, Repr

/-- One entry of a pending set: its detail word and raise count (R182). -/
structure NoticeEntry where
  detail : Detail
  count : Nat
  deriving DecidableEq, Repr

/-! ### Pictures that the READ commands return -/

/-- The answer to a taken ADVANCE (R63). -/
inductive AdvanceResult
  | met
  | proposed
  | held
  | late
  deriving DecidableEq, Repr

structure TimePicture where
  now : Stamp
  trim : Int
  source : RefSource
  disc : Discipline
  good : Nat
  suspect : Bool
  absent : Bool
  stepHeld : Bool
  label : Option Nat
  mark : Option (Int × Nat)
  holdover : Option Nat
  deriving DecidableEq, Repr

structure InputPicture where
  cfg : InputConfig
  raw : Level
  stable : Level
  published : Level
  cand : Option (Stamp × Nat)
  chattering : Bool
  count : Nat
  deriving DecidableEq, Repr

structure InputsPicture where
  inputs : Vector InputPicture 16
  funcs : Vector OutputFunc 8
  driven : BitVec 8
  rest : BitVec 8
  deriving DecidableEq, Repr

structure ChannelPicture where
  decl : Declaration
  forced : Bool
  gain : Int
  phaseTrim : Int
  offset : Int
  mag : Nat
  angle : Int
  freq : Nat
  amp : Int
  dc : Int
  outLast : Int
  intr : Interruption
  saturated : Bool
  deriving DecidableEq, Repr

structure ChannelsPicture where
  channels : Vector ChannelPicture 10
  ramp : Option RampProgress
  ref : Phase
  nominalInc : Phase
  slhold : Bool
  kept : Bool
  lastFrame : Option (BitVec 16)
  replaced : BitVec 32
  deriving DecidableEq, Repr

structure BreakerPicture where
  cfg : BreakerConfig
  out52a : Option (Fin 8)
  out52b : Option (Fin 8)
  trips : Nat
  closes : Nat
  poles : Vector Pole 3
  deriving DecidableEq, Repr

/-- What READ MEASUREMENTS gives of a value history (R139). -/
structure HistoryPicture where
  pairs : Nat
  newest : Option (Tick × Int)
  truncated : Bool
  deriving DecidableEq, Repr

/-- A measurement as READ MEASUREMENTS gives it (R139): the expiry of NO_OPERATE alone, the history of VALUE alone. -/
structure MeasPicture where
  definition : Option MeasDef
  live : LiveState
  occ : Nat
  start : Option Tick
  stop : Option Tick
  expiry : Option Tick
  history : Option HistoryPicture
  result : Option MeasResult
  deriving DecidableEq, Repr

structure RunPicture where
  runState : RunState
  run : Nat
  owner : Option Port
  options : Option RunOptions
  startPending : Option Tick
  startInstant : Option Stamp
  active : Option (Fin 64)
  entryBoundary : Option Tick
  count : Nat
  pendingTr : Option PendingTransition
  held : Option HeldTrigger
  streamEnable : Bool
  lastClose : Option CloseReason
  impairments : List Interval
  overflow : Bool
  deriving DecidableEq, Repr

/-- What the ring keeps of a member: its last beacon and the round it was last seen (R162). -/
structure Member where
  beacon : Beacon
  seen : Nat
  deriving DecidableEq, Repr

inductive Role
  | idle
  | proposer
  | deferred
  | pledged
  deriving DecidableEq, Repr

/-- The proposal state (chapter 9): `late` is the arrival instant of a COMMIT that came too late (R169). -/
structure ProposalState where
  role : Role
  prop : Option Proposal
  toAccept : BitVec 4
  sentAt : Option Tick
  tc : Option Nat
  late : Option Tick
  deriving DecidableEq, Repr

/-- The own-beacon history (R161); `last` is none before a beacon was sent, then whether it has returned. -/
structure BeaconHistory where
  returns : Nat
  losses : Nat
  last : Option Bool
  deriving DecidableEq, Repr

/-- What READ RING returns (R175); `own` is the own node as a member: its last beacon and the round in which it was sent. -/
structure RingPicture where
  node : Fin 4
  enable : Bool
  light : Bool
  ring : RingState
  history : BeaconHistory
  members : Vector (Option Member) 4
  own : Option Member
  memberSet : BitVec 4
  timeSource : Option (Fin 4)
  levels : Vector (Vector (Option Level) 16) 4
  poor : BitVec 4
  proposal : ProposalState
  waiting : Option Proposal
  nextNumber : BitVec 8
  unsent : Nat
  deriving DecidableEq, Repr

structure RecordsReply where
  records : List Record
  misfit : Option Nat
  gap : Option Nat
  cursor : SeqNo
  subscribed : Bool
  oldest : Option SeqNo
  newest : Option SeqNo
  available : Nat
  reserve : Nat
  runDropped : Nat
  totalDropped : BitVec 32
  deriving DecidableEq, Repr

/-- The payload of a reply, by what its command's rule names. -/
inductive ReplyBody
  | empty
  | fieldPos (p : FieldPos)
  | clamped (channels : BitVec 10)
  | time (p : TimePicture)
  | inputs (p : InputsPicture)
  | slot (r : Option StateRecord) (isActive : Bool)
  | channels (p : ChannelsPicture)
  | breakers (p : Vector BreakerPicture 4)
  | measurements (p : Vector MeasPicture 32)
  | armed (run : Nat) (standing : Option Bool)
  | advance (r : AdvanceResult)
  | run (p : RunPicture)
  | cursorGap (gap : Option Nat) (cursor : SeqNo)
  | cursor (cursor : SeqNo)
  | position (cursor : SeqNo) (oldest newest : Option SeqNo)
  | records (r : RecordsReply)
  | ring (p : RingPicture)
  | notices (l : List NoticeEntry)
  | route (old : Route)
  | restarted (run : Nat) (startUp : Option SeqNo)
  deriving DecidableEq, Repr

/-- A reply: the tag of its command, the result code and the payload (R181). -/
structure Reply where
  tag : Byte
  code : ResultCode
  body : ReplyBody
  deriving DecidableEq, Repr

/-- The frame a transaction sends (R178): the empty reply, or a reply, with the lost count when it carries OVERRUN (R180). -/
inductive Outgoing
  | emptyReply
  | reply (r : Reply) (overrun : Option Nat)
  deriving DecidableEq, Repr

end Sys2Proof.Machine
end

