-- ==== Sys2Proof/Machine/Arith.lean ====
section
/-! DEFINITION. The arithmetic of the manual: ticks, device time, rounding, the cosine table and the decay factor,
and reading and replacing one place of a vector. -/

namespace Sys2Proof.Machine

/-- The vector with place `i` replaced. -/
def upd {α : Type} {n : Nat} (v : Vector α n) (i : Fin n) (x : α) : Vector α n :=
  v.set i.val x i.isLt

/-- The member `i` of a set held as one bit per member (R189). -/
def inSet {n : Nat} (s : BitVec n) (i : Nat) : Bool := s.getLsbD i

/-- The set with member `i` added, or taken out. -/
def setMember {n : Nat} (s : BitVec n) (i : Nat) (b : Bool) : BitVec n :=
  if b then s ||| BitVec.ofNat n (2 ^ i) else s &&& ~~~(BitVec.ofNat n (2 ^ i))

/-- The opposite level. -/
def Level.opp : Level → Level
  | .inactive => .active
  | .active => .inactive

/-! ### Ticks (R1) -/

/-- Ticks from `a` to `b`, modulo 2^48 (R1). -/
def Tick.since (a b : Tick) : Nat := (b - a).toNat

/-- `b` is at or after `a`: the distance modulo 2^48 is in the lower half of the range. -/
def Tick.le (a b : Tick) : Bool := decide ((b - a).toNat < 2 ^ 47)

/-- `b` is strictly after `a`. -/
def Tick.lt (a b : Tick) : Bool := Tick.le a b && a != b

/-- The instant `n` ticks after `a`. -/
def Tick.plus (a : Tick) (n : Nat) : Tick := a + BitVec.ofNat 48 n

/-- The signed number of microseconds from `a` to `b` (R128). -/
def Tick.diff (a b : Tick) : Int := (b - a).toInt

/-! ### Device time (R3) -/

/-- Device time counts whole microseconds modulo 4,294,967,296 seconds. -/
def devModulus : Nat := 4294967296 * 1000000

/-- Device time of an ET under an offset (R3). -/
def devOf (offset : Nat) (t : Tick) : Nat := (t.toNat + offset) % devModulus

/-- A difference of device times, the shorter way round their range. -/
def foldDev (d : Int) : Int :=
  let m := d % Int.ofNat devModulus
  if 2 * m < Int.ofNat devModulus then m else m - Int.ofNat devModulus

def devSeconds (dev : Nat) : Nat := dev / 1000000

def devMicros (dev : Nat) : Nat := dev % 1000000

/-- An offset changed by a signed number of microseconds. -/
def moveOffset (offset : Nat) (by' : Int) : Nat := ((Int.ofNat offset + by') % Int.ofNat devModulus).toNat

/-- A difference of microseconds folded into -500,000..+499,999 (R8). -/
def foldMicros (d : Int) : Int :=
  let m := d % 1000000
  if m < 500000 then m else m - 1000000

/-! ### Rounding (00_scope.md, Arithmetic) -/

/-- The integer nearest to `n / d`, ties away from zero, for `d` above 0. -/
def roundDiv (n : Int) (d : Nat) : Int :=
  if 0 ≤ n then (2 * n + d) / (2 * d) else -((-(2 * n) + d) / (2 * d))

/-- clamp(x, lo, hi). -/
def clampInt (x lo hi : Int) : Int := if x < lo then lo else if hi < x then hi else x

/-- The 32-bit phase of an integer, modulo 2^32. -/
def toPhase (n : Int) : Phase := BitVec.ofInt 32 n

/-- |x| as a natural number. -/
def absNat (x : Int) : Nat := x.natAbs

/-! ### The cosine table (stage 3 of R85) and the decay factor (R84)

Both are evaluated by their Taylor series in fixed point with 96 fractional bits. DEDUCED (log 31): the series give the
integer nearest to the exact value for every argument of their range. -/

/-- The scale of the fixed point: 2^96. -/
def fixOne : Int := 2 ^ 96

/-- floor(π × 2^96). -/
def fixPi : Int := 248902613312231085230521944622

/-- `fuel` terms of the cosine series from the term `t` of degree `k`, with `x2` the square of the angle. -/
def cosSeries (fuel k : Nat) (t x2 : Int) : Int :=
  match fuel with
  | 0 => 0
  | fuel + 1 => t + cosSeries fuel (k + 2) (-(t * x2 / fixOne) / ((k + 1) * (k + 2) : Nat)) x2

/-- round(2^22 × cos(π/2 × r / 2^18)) for r in 0..2^18. -/
def cosQuarter (r : Nat) : Int :=
  let x := fixPi * r / 2 ^ 19
  roundDiv (cosSeries 17 0 fixOne (x * x / fixOne) * 2 ^ 22) (2 ^ 96)

/-- Stage 3 of R85: the integer nearest to 2^22 × cos(2π q / 2^20). -/
def cosTable (q : Nat) : Int :=
  let r := q % 2 ^ 18
  match (q / 2 ^ 18) % 4 with
  | 0 => cosQuarter r
  | 1 => -cosQuarter (2 ^ 18 - r)
  | 2 => -cosQuarter r
  | _ => cosQuarter (2 ^ 18 - r)

/-- `fuel` terms of exp(-1/τ) from the term `t` of degree `k`. -/
def expSeries (fuel k tau : Nat) (t : Int) : Int :=
  match fuel with
  | 0 => 0
  | fuel + 1 => t + expSeries fuel (k + 1) tau (-(t / (tau * (k + 1) : Nat)))

/-- Kq = round(2^24 × exp(-100 / τ_µs)) with τ_µs = τ × 100 (R84). -/
def decayFactor (tau : Nat) : Nat :=
  (roundDiv (expSeries 32 0 tau fixOne * 2 ^ 24) (2 ^ 96)).toNat

/-! ### Setpoint stages (R82) and the reference (R80) -/

/-- Stage 1: A = round(M × 1,414,214 / 1,000,000). -/
def amplitude (mag : Nat) : Int := roundDiv (mag * 1414214) 1000000

/-- Stage 2: φ = round((θ + phase trim) × 2^32 / 36,000) mod 2^32. -/
def phaseOffset (angle phaseTrim : Int) : Phase := toPhase (roundDiv ((angle + phaseTrim) * 2 ^ 32) 36000)

/-- Stage 3, and the nominal increment of R80: round(f × 2^32 / 10,000,000). -/
def increment (freq : Nat) : Phase := toPhase (roundDiv (freq * 2 ^ 32) 10000000)

/-- R0 of R80, from the microsecond part of device time at the start boundary. -/
def anchorPhase (nominal micros : Nat) : Phase :=
  BitVec.ofNat 32 (nominal * micros % 1000000000 * 2 ^ 32 / 1000000000)

/-- Stages 1 to 4 of R85: the AC term of accumulator `acc`. -/
def acTerm (amp : Int) (phi acc : Phase) : Int :=
  roundDiv (amp * cosTable ((acc + phi).toNat / 4096)) (2 ^ 22)

/-- An angle folded into -18,000..+17,999 by adding or taking away 36,000 (R91, R131). -/
def foldAngle (a : Int) : Int :=
  if a < -18000 then a + 36000 else if 17999 < a then a - 36000 else a

/-- N = floor(10,000,000 / |t|) (R2), for t other than 0. -/
def correctionSpacing (trim : Int) : Nat := 10000000 / trim.natAbs

end Sys2Proof.Machine
end

