-- ==== Sys2Proof/Machine/State.lean ====
section
/-! DEFINITION. The state of the MQ-24, block by block, its reset value, and the reasons a step can stop.
Plain data: no field has a function type. Each field's rule is in INVENTORY.md. -/

namespace Sys2Proof.Machine

/-- TB (chapter 1). `offset` is in whole microseconds modulo 4,294,967,296 × 1,000,000 (R3). -/
structure TimeBase where
  et : Tick
  offset : Nat
  trim : Int
  corr : Nat
  source : RefSource
  disc : Discipline
  good : Nat
  stepHeld : Bool
  mark : Option (Tick × Int)
  watch : Option Tick
  holdover : Option Tick
  label : Option Nat
  suspect : Bool
  absent : Bool
  deriving DecidableEq, Repr

/-- The present oscillator microsecond, the model's own bookkeeping (log 5): how many counts of ET fall in it (1; 2 at
a positive correction, 0 at a negative one), whether the grid was realigned in it, and which grid events it has given. -/
structure Instant where
  counts : Nat
  realigned : Bool
  opened : Bool
  boundary : Bool
  sampled : Option Tick
  beacon : Bool
  deriving DecidableEq, Repr

/-- BIU (chapter 2). `shown` is BIU as it stood at the last sampling instant that has passed, which READ INPUTS returns (R29). -/
structure Biu where
  inputs : Vector Input 16
  funcs : Vector OutputFunc 8
  rest : BitVec 8
  driven : BitVec 8
  shown : InputsPicture
  deriving DecidableEq, Repr

/-- ST (chapter 3): `none` is EMPTY. -/
structure StateTable where
  slots : Vector (Option StateRecord) 64
  deriving DecidableEq, Repr

/-- SQ: the run record (R51). `heldDue` is the boundary at which a released held trigger is taken (log 23). -/
structure Sequencer where
  runState : RunState
  lastRun : Nat
  owner : Option Port
  options : Option RunOptions
  startPending : Option Tick
  startInstant : Option Stamp
  active : Option (Fin 64)
  entryBoundary : Option Tick
  count : Nat
  pendingTr : Option PendingTransition
  held : Option HeldTrigger
  heldDue : Option Tick
  impairments : List Interval
  overflow : Bool
  lastClose : Option CloseReason
  streamEnable : Bool
  deriving DecidableEq, Repr

/-- WS (chapter 5). `linkQueue` holds the frames whose turn on the link has come (log 29); `shown` is the state of WS as it
stood at the last frame boundary, which READ CHANNELS returns (R99, log 37). -/
structure Synth where
  channels : Vector Channel 10
  ref : Phase
  nominalInc : Phase
  ramp : Option RampProgress
  kept : Option SampleFrame
  replaced : BitVec 32
  lastFrame : Option (BitVec 16)
  linkQueue : List SampleFrame
  shown : ChannelsPicture
  deriving DecidableEq, Repr

/-- BS (chapter 6). -/
structure BreakerSim where
  breakers : Vector Breaker 4
  deriving DecidableEq, Repr

/-- MU (chapter 7). `waiting` is the model's own, oldest first: DESIGN CHOICE, log 72. -/
structure MeasUnit where
  meas : Vector Measurement 32
  waiting : List WaitingEvent
  deriving DecidableEq, Repr

/-- One port's view of the store (R146). -/
structure Reader where
  cursor : SeqNo
  subscribed : Bool
  deriving DecidableEq, Repr

/-- RS (chapter 8). -/
structure Store where
  records : List Record
  nextSeq : SeqNo
  reserve : Nat
  runDropped : Nat
  totalDropped : BitVec 32
  cpReader : Reader
  apReader : Reader
  low : Bool
  deriving DecidableEq, Repr

/-- PR (chapter 9). `round` counts beacons sent; `membership` is the member set at the last change to UP; `own` is the
last beacon this part sent. -/
structure Ring where
  node : Fin 4
  enable : Bool
  ring : RingState
  history : BeaconHistory
  members : Vector (Option Member) 4
  round : Nat
  own : Option Beacon
  membership : BitVec 4
  timeSource : Option (Fin 4)
  levels : Vector (Vector (Option Level) 16) 4
  poor : BitVec 4
  proposal : ProposalState
  waiting : Option Proposal
  nextNumber : BitVec 8
  unsent : Nat
  deriving DecidableEq, Repr

/-- One port's transport: framing (`none` between transactions), reply queue and overrun mark (R178, R180). -/
structure Transport where
  framing : Option Outgoing
  queue : List Reply
  overrun : Bool
  lost : Nat
  deriving DecidableEq, Repr

/-- One port's pending set, one place per kind, and its attention line (R182, R183). -/
structure Notices where
  entries : Vector (Option NoticeEntry) 11
  attn : Bool
  deriving DecidableEq, Repr

/-- The transports of both ports. -/
structure Transports where
  cp : Transport
  ap : Transport
  deriving DecidableEq, Repr

/-- The pending sets of both ports and the routes of the nine routable kinds (R185). -/
structure NoticeBoard where
  cp : Notices
  ap : Notices
  routes : Vector Route 9
  deriving DecidableEq, Repr

/-- The input pins whose levels the rules read (10.6), true for high; `light` is light at RING_RX. -/
structure Pins where
  resetN : Bool
  estopN : Bool
  slhold : Bool
  bi : BitVec 16
  light : Bool
  deriving DecidableEq, Repr

/-- The data output of one port: every byte sent in the transactions that have ended, oldest first; the frame of a transaction
that was cut and has not ended (R178, R187, R188). -/
structure DataOutput where
  sent : List Byte
  cut : Option Outgoing
  deriving DecidableEq, Repr

/-- What the part has put on RING_TX, on the sample link and on the data outputs of the two ports, oldest first (log 29). -/
structure Wires where
  ring : List Message
  link : List DeliveredFrame
  cp : DataOutput
  ap : DataOutput
  deriving DecidableEq, Repr

/-- The state of the MQ-24. `pending` is the queue of waiting commands and events, first in first out. -/
structure State where
  tb : TimeBase
  now : Instant
  biu : Biu
  st : StateTable
  sq : Sequencer
  ws : Synth
  bs : BreakerSim
  mu : MeasUnit
  rs : Store
  pr : Ring
  ports : Transports
  notices : NoticeBoard
  pins : Pins
  out : Wires
  pending : List Instr
  deriving DecidableEq, Repr

/-- Reasons for the part to stop. None: no rule of the spec stops the part (log 32). -/
inductive Fault
  deriving DecidableEq, Repr

/-- Reasons to refuse a step. -/
inductive Refusal
  /-- Raised only by an arm of `exec` whose row has no meaning yet; safe. No arm raises it now. -/
  | notModelled (mnemonic : String)
  deriving DecidableEq, Repr

/-! ### Cold values -/

/-- R18. -/
def TimeBase.cold : TimeBase where
  et := 0
  offset := 0
  trim := 0
  corr := 0
  source := .noSource
  disc := .free
  good := 0
  stepHeld := false
  mark := none
  watch := none
  holdover := none
  label := none
  suspect := true
  absent := false

/-- The first microsecond after a cold start: the count 0 falls in it, and the boundary at ET 0 is still to be given (R4). That
it is given, as the first after the cold start (R100), is a DESIGN CHOICE, log 57. -/
def Instant.fresh : Instant where
  counts := 1
  realigned := false
  opened := false
  boundary := false
  sampled := none
  beacon := false

/-- R33; the three levels are the model's until the first sample (log 8). -/
def Input.cold : Input where
  cfg := { activeLow := false, tdb := 2000, limit := 0, shared := false, soe := false }
  raw := .inactive
  stable := .inactive
  cand := none
  edges := []
  lastEdge := none
  chattering := false
  published := .inactive
  resample := true

/-- What READ INPUTS shows until the first sampling instant, the cold values (R29, R33): DESIGN CHOICE, log 37. -/
def InputsPicture.cold : InputsPicture where
  inputs := Vector.replicate 16
    { cfg := Input.cold.cfg, raw := .inactive, stable := .inactive, published := .inactive, cand := none, chattering := false,
      count := 0 }
  funcs := Vector.replicate 8 .sequence
  driven := 0
  rest := 0

/-- R33. -/
def Biu.cold : Biu where
  inputs := Vector.replicate 16 Input.cold
  funcs := Vector.replicate 8 .sequence
  rest := 0
  driven := 0
  shown := .cold

/-- R50. -/
def StateTable.cold : StateTable where
  slots := Vector.replicate 64 none

/-- R74. -/
def Sequencer.cold : Sequencer where
  runState := .idle
  lastRun := 0
  owner := none
  options := none
  startPending := none
  startInstant := none
  active := none
  entryBoundary := none
  count := 0
  pendingTr := none
  held := none
  heldDue := none
  impairments := []
  overflow := false
  lastClose := none
  streamEnable := true

/-- R100. -/
def Channel.cold : Channel where
  decl := .undeclared
  forced := false
  gain := 0
  phaseTrim := 0
  offset := 0
  mag := 0
  angle := 0
  freq := 0
  amp := 0
  phi := 0
  inc := 0
  acc := 0
  dc := 0
  kq := 0
  sLast := 0
  uncutLast := 0
  outLast := 0
  intr := .conducting
  saturated := false
  resume := false
  handover := none

/-- What READ CHANNELS shows of the cold values until the first frame boundary (R99, R100), with SLHOLD read low: DESIGN CHOICE,
log 37. -/
def ChannelsPicture.cold : ChannelsPicture where
  channels := Vector.replicate 10
    { decl := .undeclared, forced := false, gain := 0, phaseTrim := 0, offset := 0, mag := 0, angle := 0, freq := 0,
      amp := 0, dc := 0, outLast := 0, intr := .conducting, saturated := false }
  ramp := none
  ref := 0
  nominalInc := 0
  slhold := false
  kept := false
  lastFrame := none
  replaced := 0

/-- R100. -/
def Synth.cold : Synth where
  channels := Vector.replicate 10 Channel.cold
  ref := 0
  nominalInc := 0
  ramp := none
  kept := none
  replaced := 0
  lastFrame := none
  linkQueue := []
  shown := .cold

/-- R121. -/
def Pole.cold : Pole where
  state := .closed
  pending := none
  late := false
  opTrip := none
  remembered := none
  failure := none

/-- R121. -/
def Breaker.cold : Breaker where
  cfg := { trips := [], closes := [], opening := 40000, closing := 80000, scatter := Vector.replicate 3 0,
           mode := .simulated, fail := none, assoc := Vector.replicate 3 [], shared := false }
  poles := Vector.replicate 3 Pole.cold
  trips := 0
  closes := 0
  serial := 0

/-- R121. -/
def BreakerSim.cold : BreakerSim where
  breakers := Vector.replicate 4 Breaker.cold

/-- R140. -/
def Measurement.cold : Measurement where
  definition := none
  live := .inactive
  occ := 0
  start := none
  stop := none
  expiry := none
  history := []
  truncated := false
  startPoor := false
  result := none

/-- R140. -/
def MeasUnit.cold : MeasUnit where
  meas := Vector.replicate 32 Measurement.cold
  waiting := []

/-- R156, before the START_UP commit. -/
def Store.cold : Store where
  records := []
  nextSeq := 1
  reserve := 0
  runDropped := 0
  totalDropped := 0
  cpReader := { cursor := 1, subscribed := true }
  apReader := { cursor := 1, subscribed := false }
  low := false

/-- No proposal stands (R177). -/
def ProposalState.idle : ProposalState where
  role := .idle
  prop := none
  toAccept := 0
  sentAt := none
  tc := none
  late := none

/-- The history at 0 (R161, R177). -/
def BeaconHistory.zero : BeaconHistory where
  returns := 0
  losses := 0
  last := none

/-- R177. -/
def Ring.cold : Ring where
  node := 0
  enable := false
  ring := .down
  history := .zero
  members := Vector.replicate 4 none
  round := 0
  own := none
  membership := 0
  timeSource := none
  levels := Vector.replicate 4 (Vector.replicate 16 none)
  poor := 0
  proposal := .idle
  waiting := none
  nextNumber := 0
  unsent := 0

/-- R187. -/
def Transport.cold : Transport where
  framing := none
  queue := []
  overrun := false
  lost := 0

/-- R187. -/
def Transports.cold : Transports where
  cp := .cold
  ap := .cold

/-- R187. -/
def Notices.cold : Notices where
  entries := Vector.replicate 11 none
  attn := false

/-- R187: ESTOP, TRAP and RUN_STATE to both ports, the other routable kinds to the control port. -/
def NoticeBoard.cold : NoticeBoard where
  cp := .cold
  ap := .cold
  routes := #v[.both, .both, .both, .cp, .cp, .cp, .cp, .cp, .cp]

/-- The pins at reset are inputs: DESIGN CHOICE, log 7. -/
def Pins.cold : Pins where
  resetN := true
  estopN := true
  slhold := false
  bi := 0
  light := false

/-- Nothing sent yet. -/
def DataOutput.fresh : DataOutput where
  sent := []
  cut := none

/-- Nothing put on any wire yet. -/
def Wires.fresh : Wires where
  ring := []
  link := []
  cp := .fresh
  ap := .fresh

/-- Every block at its cold values, before the store's START_UP commit; pins and queue as given. -/
def State.cold (pins : Pins) (pending : List Instr) : State where
  tb := .cold
  now := .fresh
  biu := .cold
  st := .cold
  sq := .cold
  ws := .cold
  bs := .cold
  mu := .cold
  rs := .cold
  pr := .cold
  ports := .cold
  notices := .cold
  pins := pins
  out := .fresh
  pending := pending

/-- The START_UP record of a cold start: record 1, run number 0 (R156). -/
def Record.coldStartUp : Record where
  seq := 1
  run := 0
  body := .startUp false { et := 0, dev := 0 }

/-- The part right after a cold start with ESTOP_N high (R187): every block at its cold values, START_UP held as
record 1, and REPORT_READY pending on the control port, whose attention line is asserted (R156). -/
def State.reset : State :=
  { State.cold Pins.cold [] with
    rs := { Store.cold with records := [Record.coldStartUp], nextSeq := 2 }
    notices := { NoticeBoard.cold with
      cp := { entries := Notices.cold.entries.set 9 (some { detail := .reportReady 1, count := 1 }), attn := true } } }

end Sys2Proof.Machine
end

