-- ==== Sys2Proof/Machine/Ops.lean ====
section
/-! DEFINITION. The operations every block shares: reading and writing the parts of the state, instants and frame
boundaries, notices (chapter 10), the report store (chapter 8) and the impairment list (R71). -/

namespace Sys2Proof.Machine

/-! ### The parts of the state -/

/-- A RUNNING run exists (R51). -/
def State.running (s : State) : Bool := s.sq.runState == .running

/-- The run number that records carry: the last run number while a run exists, and 0 while none exists (R51). -/
def State.runNumber (s : State) : Nat :=
  match s.sq.runState with
  | .armed => s.sq.lastRun
  | .running => s.sq.lastRun
  | .idle => 0
  | .inhibited => 0

/-- The joint id of the run in progress, or 0 (R160). -/
def State.joint (s : State) : Nat :=
  match s.sq.runState, s.sq.options with
  | .armed, some o => o.joint
  | .running, some o => o.joint
  | _, _ => 0

/-- Device time now (R3). -/
def State.dev (s : State) : Nat := devOf s.tb.offset s.tb.et

/-- The present instant as ET and device time. -/
def State.stamp (s : State) : Stamp := { et := s.tb.et, dev := s.dev }

/-- An ET with its device time under the offset in force. -/
def State.stampAt (s : State) (t : Tick) : Stamp := { et := t, dev := devOf s.tb.offset t }

/-- How far a device time lies after the present one, in µs, the shorter way round (R113, R127). -/
def State.ahead (s : State) (dev : Nat) : Int := foldDev ((dev : Int) - s.dev)

/-- The ET of a device time, as the reference instant of an event (R127). -/
def State.etOf (s : State) (dev : Nat) : Tick := s.tb.et + BitVec.ofInt 48 (s.ahead dev)

/-- The ET at which device time reaches a value, as an instant at which something is to act (R113, R169): on the side of the
present instant on which the value lies, however far, an instant beyond the half range of ET being taken at its edge (log 38). -/
def State.reachOf (s : State) (dev : Nat) : Tick :=
  s.tb.et + BitVec.ofInt 48 (clampInt (s.ahead dev) (-(2 ^ 47 - 2 ^ 24)) (2 ^ 47 - 2 ^ 24))

/-- Time quality as it stands (R13). -/
def State.tq (s : State) : TimeQuality := { disc := s.tb.disc, suspect := s.tb.suspect }

/-- A time quality below LOCKED, whatever the flag (R13). -/
def TimeQuality.poor (q : TimeQuality) : Bool := q.disc != .locked

/-- The record of the active slot (R35: the slot is the active record). -/
def State.activeRecord (s : State) : Option StateRecord :=
  match s.sq.active with
  | none => none
  | some a => s.st.slots[a]

/-- The common part of the active STEADY or RAMP record. -/
def State.activeBody (s : State) : Option LiveBody :=
  match s.activeRecord with
  | some (.steady b) => some b
  | some (.ramp b _) => some b
  | some .endState => none
  | none => none

/-- The active record's ramp specification (R41). -/
def State.activeRamp (s : State) : Option RampSpec :=
  match s.activeRecord with
  | some (.ramp _ r) => some r
  | some (.steady _) => none
  | some .endState => none
  | none => none

/-- The triggers of the active state in index order (R40). -/
def State.triggers (s : State) : List Trigger :=
  match s.activeBody with
  | some b => b.triggers
  | none => []

/-! ### Instants of the grid (R2, R4; log 5)

An instant defined by a count value falls in the oscillator microsecond in which ET first stands at that value or
skips it. The two functions answer that count, not the count after a skip. -/

/-- The count of this microsecond at which `(count + phase)` is a multiple of `period`, if there is one. -/
def gridCount (counts : Nat) (et : Tick) (phase period : Nat) : Option Tick :=
  if 1 ≤ counts && (et.toNat + phase) % period == 0 then some et
  else if 2 ≤ counts && ((et - 1).toNat + phase) % period == 0 then some (et - 1)
  else none

/-- The frame boundary that falls in this microsecond and has not been given yet (R4). After a change of the offset in a
microsecond that skips a count, the skipped count is looked at on the new grid too: DESIGN CHOICE, log 61. -/
def State.boundaryNow (s : State) : Option Tick :=
  if s.now.boundary then none
  else gridCount (if s.now.realigned then max 1 s.now.counts else s.now.counts) s.tb.et s.tb.offset 100

/-- The first frame boundary at or after an ET on the present grid: past the wrap of ET, the first of the grid that runs
from ET 0 (R1, R4; log 38). -/
def State.boundaryAtOrAfter (s : State) (t : Tick) : Tick :=
  let wait (from' : Tick) : Nat := (100 - devOf s.tb.offset from' % 100) % 100
  if t.toNat + wait t < 2 ^ 48 then Tick.plus t (wait t) else Tick.plus 0 (wait 0)

/-- The first frame boundary after an ET. -/
def State.boundaryAfter (s : State) (t : Tick) : Tick := s.boundaryAtOrAfter (Tick.plus t 1)

/-- The first frame boundary after this microsecond. -/
def State.followingBoundary (s : State) : Tick := s.boundaryAfter s.tb.et

/-- The first frame boundary at or after this instant that has still to be given. One on the count that this microsecond skips is
not before it: DESIGN CHOICE, log 82. -/
def State.nextBoundary (s : State) : Tick :=
  match s.boundaryNow with
  | some b => b
  | none => s.followingBoundary

/-! ### Notices (R182 to R186) -/

/-- The priority position of a notice kind, from 0 (R182, R189). -/
def NoticeKind.index : NoticeKind → Fin 11
  | .estop => 0
  | .trap => 1
  | .runState => 2
  | .channelState => 3
  | .measurement => 4
  | .breakerFault => 5
  | .timeState => 6
  | .ringState => 7
  | .spaceLow => 8
  | .reportReady => 9
  | .test => 10

/-- The kind of a detail word. -/
def Detail.kind : Detail → NoticeKind
  | .estop _ _ => .estop
  | .trap _ _ => .trap
  | .runState _ _ _ => .runState
  | .channelState _ _ _ => .channelState
  | .measurement _ _ => .measurement
  | .breakerFault _ _ _ _ => .breakerFault
  | .timeState _ _ _ => .timeState
  | .ringState _ _ _ => .ringState
  | .spaceLow _ _ _ => .spaceLow
  | .reportReady _ => .reportReady
  | .test _ => .test

/-- A raise on one pending set: a new entry with count 1, or the detail word replaced and the count raised up to 255
(R182). The attention line is asserted while the set holds an entry (R183). -/
def Notices.place (n : Notices) (d : Detail) : Notices :=
  let count := match n.entries[d.kind.index] with
    | none => 1
    | some e => min 255 (e.count + 1)
  { entries := upd n.entries d.kind.index (some { detail := d, count := count }), attn := true }

/-- Whether a pending set holds an entry. -/
def Notices.any (n : Notices) : Bool := n.entries.toList.any Option.isSome

/-- One kind's entry taken out; the line is released when the set is then empty (R151, R183). -/
def Notices.withdraw (n : Notices) (k : NoticeKind) : Notices :=
  let entries := upd n.entries k.index none
  { entries := entries, attn := entries.toList.any Option.isSome }

def NoticeBoard.get (b : NoticeBoard) : Port → Notices
  | .cp => b.cp
  | .ap => b.ap

def NoticeBoard.put (b : NoticeBoard) (p : Port) (n : Notices) : NoticeBoard :=
  match p with
  | .cp => { b with cp := n }
  | .ap => { b with ap := n }

/-- A notice placed on one port whatever the routes: REPORT_READY and TEST follow their own ports (R182). -/
def NoticeBoard.placeOn (b : NoticeBoard) (p : Port) (d : Detail) : NoticeBoard :=
  b.put p ((b.get p).place d)

/-- The route of a routable kind; REPORT_READY and TEST have none (R185). -/
def NoticeBoard.routeOf (b : NoticeBoard) (k : NoticeKind) : Route :=
  if h : k.index.val < 9 then b.routes[k.index.val] else .nowhere

/-- A notice placed on each port that its kind's route names (R182). -/
def NoticeBoard.raise (b : NoticeBoard) (d : Detail) : NoticeBoard :=
  match b.routeOf d.kind with
  | .cp => b.placeOn .cp d
  | .ap => b.placeOn .ap d
  | .both => (b.placeOn .cp d).placeOn .ap d
  | .nowhere => b

def State.raise (s : State) (d : Detail) : State :=
  { s with notices := s.notices.raise d }

def State.raiseOn (s : State) (p : Port) (d : Detail) : State :=
  { s with notices := s.notices.placeOn p d }

/-- The RUN_STATE notice with the run state and run number as they stand (R182, log 12). -/
def State.raiseRunState (s : State) : State :=
  s.raise (.runState s.sq.runState s.runNumber s.sq.lastClose)

/-! ### The report store (R142 to R157) -/

/-- The fixed length of each record kind (R143). -/
def RecordBody.length : RecordBody → Nat
  | .runOpen _ _ _ _ => 48
  | .runClose _ => 64
  | .measurementResult _ _ _ => 40
  | .impairment _ _ _ => 24
  | .trap _ _ _ _ => 24
  | .stateEntry _ _ _ _ => 20
  | .inputEvent _ _ _ _ _ _ => 20
  | .glitch _ _ _ _ _ => 24
  | .breakerEvent _ => 28
  | .timeEvent _ => 36
  | .peerEvent _ => 28
  | .startUp _ _ => 24

/-- The essential kinds draw on the run reserve (R143). -/
def RecordBody.essential : RecordBody → Bool
  | .runOpen _ _ _ _ => true
  | .runClose _ => true
  | .measurementResult _ _ _ => true
  | .impairment _ _ _ => true
  | .trap _ _ _ _ => true
  | .stateEntry _ _ _ _ => false
  | .inputEvent _ _ _ _ _ _ => false
  | .glitch _ _ _ _ _ => false
  | .breakerEvent _ => false
  | .timeEvent _ => false
  | .peerEvent _ => false
  | .startUp _ _ => false

def Record.length (r : Record) : Nat := r.body.length

/-- The size of the store memory (R142). -/
def storeBytes : Nat := 65536

def totalLength (l : List Record) : Nat := (l.map Record.length).sum

/-- Held space (R147). -/
def Store.held (rs : Store) : Nat := totalLength rs.records

/-- Unused space (R147). -/
def Store.unused (rs : Store) : Nat := storeBytes - rs.held

/-- The number of the oldest record held, or the next sequence number for an empty store (R152, R153). -/
def Store.oldest (rs : Store) : SeqNo :=
  match rs.records with
  | [] => rs.nextSeq
  | r :: _ => r.seq

def Store.oldestHeld (rs : Store) : Option SeqNo := rs.records.head?.map Record.seq

def Store.newestHeld (rs : Store) : Option SeqNo := rs.records.getLast?.map Record.seq

/-- A record has been passed by a reader when its number comes before the cursor, counted from the oldest (R146, R144). -/
def Store.passedBy (rs : Store) (rd : Reader) (r : Record) : Bool :=
  decide ((r.seq - rs.oldest).toNat < (rd.cursor - rs.oldest).toNat)

/-- Every subscribed reader has passed the record (R146, R148). -/
def Store.free (rs : Store) (r : Record) : Bool :=
  (!rs.cpReader.subscribed || rs.passedBy rs.cpReader r) &&
    (!rs.apReader.subscribed || rs.passedBy rs.apReader r)

/-- Available space: 65,536 less the reserve, less the records some subscribed reader has not passed (R147). -/
def Store.available (rs : Store) : Nat :=
  storeBytes - rs.reserve - totalLength (rs.records.filter (fun r => !rs.free r))

/-- Records discarded from the oldest end, each passed by every subscribed reader, until `room` bytes of unused space
stand outside the reserve or no further record may go (R148). `spare` is that space before the first record goes. -/
def discardUntil (rs : Store) (room spare : Nat) : List Record → List Record × Nat
  | [] => ([], spare)
  | r :: rest =>
    if room ≤ spare then (r :: rest, spare)
    else if rs.free r then discardUntil rs room (spare + r.length) rest
    else (r :: rest, spare)

/-- Unused space outside the reserve. -/
def Store.spare (rs : Store) : Nat := rs.unused - rs.reserve

/-- A record joined at the newest end with the next sequence number (R144). -/
def Store.append (rs : Store) (run : Nat) (body : RecordBody) : Store :=
  { rs with
    records := rs.records ++ [{ seq := rs.nextSeq, run := run, body := body }]
    nextSeq := rs.nextSeq + 1 }

/-- What a commit does in the store (R148, R149): an essential record takes its bytes from the reserve; a
non-essential one finds room, discards for it, or is dropped. The flag says whether the record was committed. -/
def Store.commit (rs : Store) (run : Nat) (body : RecordBody) : Store × Bool :=
  if body.essential then
    (Store.append { rs with reserve := rs.reserve - body.length } run body, true)
  else
    let d := discardUntil rs body.length rs.spare rs.records
    if body.length ≤ d.2 then (Store.append { rs with records := d.1 } run body, true)
    else
      ({ rs with
        runDropped := if run = 0 then rs.runDropped else min 65535 (rs.runDropped + 1)
        totalDropped := rs.totalDropped + 1 }, false)

def Store.reader (rs : Store) : Port → Reader
  | .cp => rs.cpReader
  | .ap => rs.apReader

def Store.setReader (rs : Store) (p : Port) (rd : Reader) : Store :=
  match p with
  | .cp => { rs with cpReader := rd }
  | .ap => { rs with apReader := rd }

/-- REPORT_READY on the port of each subscribed reader, at a commit (R151). -/
def State.reportReady (s : State) (newest : SeqNo) : State :=
  let cp (n : NoticeBoard) : NoticeBoard :=
    if s.rs.cpReader.subscribed then n.placeOn .cp (.reportReady newest) else n
  let ap (n : NoticeBoard) : NoticeBoard :=
    if s.rs.apReader.subscribed then n.placeOn .ap (.reportReady newest) else n
  { s with notices := ap (cp s.notices) }

/-- The low-space state follows the available space, and a fall below 4,096 raises SPACE_LOW (R150). -/
def State.settleSpace (s : State) : State :=
  let low := decide (s.rs.available < 4096)
  { s with
    rs := { s.rs with low := low }
    notices :=
      if low && !s.rs.low then s.notices.raise (.spaceLow false s.rs.available s.rs.runDropped) else s.notices }

/-- A record committed at the instant of its event, with the notices a commit or a drop raises (R144 to R151). -/
def State.commit (s : State) (body : RecordBody) : State :=
  let c := s.rs.commit s.runNumber body
  let s' := { s with rs := c.1 }
  let s'' :=
    if c.2 then s'.reportReady s.rs.nextSeq
    else s'.raise (.spaceLow true c.1.available c.1.runDropped)
  s''.settleSpace

/-- The run reserve that ARM asks for: 904 + 40m (R53). -/
def reserveFor (measurements : Nat) : Nat := 904 + 40 * measurements

/-- The reserve set aside at ARM, discarding as needed (R149). -/
def Store.setAside (rs : Store) (n : Nat) : Store :=
  { rs with
    records := (discardUntil rs n rs.spare rs.records).1
    reserve := n
    runDropped := 0 }

/-- What remains of the reserve released (step 7 of R67, R55). -/
def State.releaseReserve (s : State) : State :=
  State.settleSpace { s with rs := { s.rs with reserve := 0 } }

/-! ### The impairment list (R71) -/

/-- An open interval of that kind and subject stands in the list. -/
def openInterval (l : List Interval) (kind : ImpKind) (subject : Option Nat) : Bool :=
  l.any (fun i => i.kind == kind && i.subject == subject && i.stop.isNone)

/-- The start of a condition handed to SQ (R71): an interval opened with its IMPAIRMENT record, or the overflow mark
set on a full list; outside RUNNING, nothing. -/
def State.openImpairment (s : State) (kind : ImpKind) (subject : Option Nat) (at' : Tick) : State :=
  if s.running then
    if openInterval s.sq.impairments kind subject then s
    else if 32 ≤ s.sq.impairments.length then { s with sq := { s.sq with overflow := true } }
    else
      State.commit
        { s with sq := { s.sq with
          impairments := s.sq.impairments ++ [{ kind := kind, subject := subject, start := at', stop := none }] } }
        (.impairment kind subject (s.stampAt at'))
  else s

/-- The open interval of that kind and subject, if there is one, closed at an instant. -/
def closeInterval (l : List Interval) (kind : ImpKind) (subject : Option Nat) (at' : Tick) : List Interval :=
  l.map (fun i =>
    if i.kind == kind && i.subject == subject && i.stop.isNone then { i with stop := some at' } else i)

/-- The end of a condition handed to SQ (R71). -/
def State.endImpairment (s : State) (kind : ImpKind) (subject : Option Nat) (at' : Tick) : State :=
  { s with sq := { s.sq with impairments := closeInterval s.sq.impairments kind subject at' } }

end Sys2Proof.Machine
end

