-- ==== Sys2Proof/Machine/Flags.lean ====
section
/-! DEFINITION. The conditions and levels that are read off the state: pole conditions, output levels, the channels of
poles, the ring's member set, and whether the run is held. -/

namespace Sys2Proof.Machine

/-! ### Poles (6.2, R40, R32) -/

/-- A pole whose main contact is closed: CLOSED or OPENING. -/
def PoleState.made : PoleState → Bool
  | .closed => true
  | .opening => true
  | .arcing => false
  | .opened => false
  | .closing => false

def allPoles (poles : Vector Pole 3) (f : PoleState → Bool) : Bool := poles.toList.all (fun p => f p.state)

def anyPole (poles : Vector Pole 3) (f : PoleState → Bool) : Bool := poles.toList.any (fun p => f p.state)

def polesAllOpen (poles : Vector Pole 3) : Bool := allPoles poles (· == .opened)

def polesAllClosed (poles : Vector Pole 3) : Bool := allPoles poles (· == .closed)

def anyMade (poles : Vector Pole 3) : Bool := anyPole poles PoleState.made

/-- The level conditions of a BREAKER trigger (R40). -/
def BreakerCond.holds (c : BreakerCond) (poles : Vector Pole 3) : Bool :=
  match c with
  | .allOpen => polesAllOpen poles
  | .allClosed => polesAllClosed poles
  | .anyPoleOpen => anyPole poles (· == .opened)

/-! ### Outputs (R31, R32) -/

/-- The pattern the SEQUENCE outputs are driven from: the active state's while RUNNING, else the rest pattern (R31). -/
def State.pattern (s : State) : BitVec 8 :=
  if s.running then
    match s.activeBody with
    | some b => b.pattern
    | none => s.biu.rest
  else s.biu.rest

/-- The level of an aux output (R32): inactive while no run is RUNNING. -/
def State.auxLevel (s : State) (k : Fin 4) (b52 : Bool) : Bool :=
  s.running &&
    (if b52 then polesAllOpen s.bs.breakers[k].poles else anyMade s.bs.breakers[k].poles)

/-- The level output `n` takes from its function (R30 to R32). -/
def State.outputLevel (s : State) (n : Fin 8) : Bool :=
  match s.biu.funcs[n] with
  | .sequence => inSet s.pattern n.val
  | .aux k b52 => s.auxLevel k b52

/-- The eight output levels as one word, bit n for BOn. -/
def State.outputLevels (s : State) : BitVec 8 :=
  (List.finRange 8).foldl (fun w n => if s.outputLevel n then w ||| BitVec.ofNat 8 (2 ^ n.val) else w) 0

/-- Every output driven to the level its function gives now. -/
def State.driveOutputs (s : State) : State :=
  { s with biu := { s.biu with driven := s.outputLevels } }

/-! ### Channels of poles (R102) -/

/-- The channels associated with a pole. -/
def State.assoc (s : State) (k : Fin 4) (p : Fin 3) : List (Fin 10) := s.bs.breakers[k].cfg.assoc[p]

/-- Channel `c` is associated with some pole that is OPEN (R81). -/
def State.onOpenPole (s : State) (c : Fin 10) : Bool :=
  (List.finRange 4).any (fun k => (List.finRange 3).any (fun p =>
    (s.assoc k p).contains c && s.bs.breakers[k].poles[p].state == .opened))

/-! ### The ring -/

/-- The member set: the originators kept, and the own node while the ring is enabled (R162). -/
def Ring.memberSet (r : Ring) : BitVec 4 :=
  (List.finRange 4).foldl
    (fun w n => if r.members[n].isSome || (r.enable && n == r.node) then w ||| BitVec.ofNat 4 (2 ^ n.val) else w) 0

/-- The run is held (R64): this part is a proposer, or pledged as a follower, until the commit entry or withdrawal. -/
def Ring.holds (r : Ring) : Bool :=
  match r.proposal.role with
  | .proposer => true
  | .pledged => true
  | .idle => false
  | .deferred => false

/-- The proposer's standing PEER_WAIT proposal, not yet committed (R170). -/
def Ring.waitStands (r : Ring) : Bool :=
  match r.proposal.role, r.proposal.prop with
  | .proposer, some p => p.mode == .wait && r.proposal.tc.isNone
  | _, _ => false

/-- A condition of the active state that is a PEER trigger (R167). -/
def isPeerTrigger (t : Trigger) : Bool := t.cond == .peer

/-- The active state has a PEER trigger (R167). -/
def State.hasPeerTrigger (s : State) : Bool := s.triggers.any isPeerTrigger

/-- The last reported level of a remote input; before the first report it is neither (R40, R113). -/
def State.remoteLevel (s : State) (node : Fin 4) (i : Fin 16) : Option Level := (s.pr.levels[node])[i]

/-! ### Level conditions of triggers at entry (R60) -/

/-- A level condition that stands now; PEER, ADVANCE and RAMP_DONE are met at an instant, not at entry. -/
def State.condStands (s : State) (c : Cond) : Bool :=
  match c with
  | .input i l => s.biu.inputs[i].published == l
  | .remoteInput n i l => s.remoteLevel n i == some l
  | .breaker k b => b.holds s.bs.breakers[k].poles
  | .peer => false
  | .advance => false
  | .rampDone => false

/-! ### The picture of BIU (R29) -/

/-- The edges within the last 1,000,000 ticks of `t` (R24). -/
def windowAt (edges : List Tick) (t : Tick) : List Tick := edges.filter (fun e => decide (Tick.since e t < 1000000))

/-- One input as READ INPUTS gives it of the instant `t` (R29). -/
def Input.picture (x : Input) (t : Tick) : InputPicture where
  cfg := x.cfg
  raw := x.raw
  stable := x.stable
  published := x.published
  cand := x.cand.map (fun c => (c.tFirst, c.bounces))
  chattering := x.chattering
  count := (windowAt x.edges t).length

/-- The block as it stands at the instant `t`. -/
def Biu.picture (b : Biu) (t : Tick) : InputsPicture where
  inputs := b.inputs.map (fun x => x.picture t)
  funcs := b.funcs
  driven := b.driven
  rest := b.rest

/-- What READ INPUTS returns (R29): BIU at the last sampling instant, which is the present one from its sample on. That the picture
is of the last one, and what there is before the first: DESIGN CHOICE, log 37. -/
def State.inputsPicture (s : State) : InputsPicture :=
  match s.now.sampled with
  | some t => s.biu.picture t
  | none => s.biu.shown

end Sys2Proof.Machine
end

