-- ==== Sys2Proof/Machine/Measure.lean ====
section
/-! DEFINITION. The measurement unit during a run (chapter 7): starts, stops, value histories, assessment against the
impairments, results, and the resolution at a close. -/

namespace Sys2Proof.Machine

def State.putMeas (s : State) (m : Fin 32) (x : Measurement) : State :=
  { s with mu := { s.mu with meas := upd s.mu.meas m x } }

/-! ### References (R124) -/

/-- A reference whose subject is a remote input of a node. -/
def MuEvent.remoteNode : MuEvent → Option (Fin 4)
  | .inputRemote n _ _ => some n
  | .stateEntry _ => none
  | .inputLocal _ _ => none
  | .breaker _ _ => none

/-- A reference whose subject is a local input. -/
def MuEvent.localInput : MuEvent → Option (Fin 16)
  | .inputLocal i _ => some i
  | .stateEntry _ => none
  | .inputRemote _ _ _ => none
  | .breaker _ _ => none

/-- The event a start reference names, if it is not RUN_START. -/
def StartRef.event : StartRef → Option MuEvent
  | .runStart => none
  | .onEvent e _ => some e

/-- The events named by the start and the stop reference of a definition. -/
def MeasDef.events (d : MeasDef) : List MuEvent := d.start.event.toList ++ [d.stop]

/-! ### Impairments relevant to a measurement (R133) -/

def MeasDef.relevant (d : MeasDef) (i : Interval) : Bool :=
  match i.kind with
  | .timeQuality => true
  | .streamSlip => true
  | .saturation => true
  | .channelFault => true
  | .chatter => d.events.any (fun e => e.localInput.map Fin.val == i.subject && i.subject.isSome)
  | .ringLoss => d.events.any (fun e => e.remoteNode.isSome)
  | .remoteTime => d.events.any (fun e => e.remoteNode.map Fin.val == i.subject && i.subject.isSome)

/-- An interval overlaps the judged interval `lo`..`hi`, both ends included (R134). -/
def Interval.overlaps (i : Interval) (lo hi : Tick) : Bool :=
  Tick.le i.start hi && (match i.stop with
    | none => true
    | some t => Tick.le lo t)

/-- The deciding kind that makes an outcome VOID, if any, in the order of R134. -/
def State.decidingKind (s : State) (d : MeasDef) (poor : Bool) (lo hi : Tick) : Option Deciding :=
  if s.sq.overflow then some .overflow
  else if poor then some (.impairment .remoteTime)
  else
    match s.sq.impairments.find? (fun i => d.relevant i && i.overlaps lo hi) with
    | some i => some (.impairment i.kind)
    | none => none

/-- The earlier and the later of two instants. -/
def orderTicks (a b : Tick) : Tick × Tick := if Tick.le a b then (a, b) else (b, a)

/-! ### Determination (R128, R131, R132, R136, R137) -/

/-- The bit of an outcome in a notify set, in the order of R138. -/
def MeasOutcome.index : MeasOutcome → Fin 9
  | .pass => 0
  | .early => 1
  | .late => 2
  | .low => 3
  | .high => 4
  | .unexpected => 5
  | .voided => 6
  | .notOperated => 7
  | .notRun => 8

/-- The code of a kind: TIME 0, VALUE 1, NO_OPERATE 2 (R189). -/
def MeasKind.code : MeasKind → Nat
  | .time _ _ _ => 0
  | .value _ _ _ _ _ => 1
  | .noOperate _ => 2

/-- The band of a TIME or VALUE measurement, and W for NO_OPERATE (R128, R131, R136). -/
def MeasKind.band : MeasKind → Nat
  | .time nominal tol rel => max tol (nominal * rel / 1000)
  | .value _ _ expected tol rel => max tol (absNat expected * rel / 1000)
  | .noOperate window => window

/-- A result committed and notified, and the measurement DONE (R136, R137). -/
def State.finish (s : State) (m : Fin 32) (d : MeasDef) (r : MeasResult) : State :=
  let s1 := s.putMeas m { s.mu.meas[m] with live := .done, result := some r, stop := r.stop }
  let s2 := s1.commit (.measurementResult m d.kind r)
  if inSet d.notify r.outcome.index.val then s2.raise (.measurement m r.outcome) else s2

/-- A result with the instants and time quality as they stand (R136). The determination instant is the present ET, also of an
event at a count that a correction skipped: DESIGN CHOICE, log 55. -/
def State.result (s : State) (m : Fin 32) (d : MeasDef) (outcome : MeasOutcome) (value : Option Int)
    (stop : Option Tick) (deciding : Option Deciding) : MeasResult :=
  { run := s.runNumber, outcome := outcome, value := value, band := d.kind.band, start := s.mu.meas[m].start, stop := stop,
    determined := s.tb.et, tq := s.tq, deciding := deciding }

/-- An outcome judged by R134 over `lo`..`hi`, then committed. -/
def State.judge (s : State) (m : Fin 32) (d : MeasDef) (outcome : MeasOutcome) (value : Option Int)
    (stop : Option Tick) (poor : Bool) (lo hi : Tick) : State :=
  match s.decidingKind d (poor || s.mu.meas[m].startPoor) lo hi with
  | some k => s.finish m d (s.result m d .voided value stop (some k))
  | none => s.finish m d (s.result m d outcome value stop none)

/-- The value in force at an instant (R130): `none` is unknown. -/
def valueAt (history : List (Tick × Int)) (truncated : Bool) (t : Tick) : Option Int :=
  match (history.filter (fun p => Tick.le p.1 t)).getLast? with
  | some p => some p.2
  | none => if truncated then none else some 0

/-- The outcome of a deviation against a band, with the outcomes below and above it. -/
def bandOutcome (dev : Int) (band : Nat) (below above : MeasOutcome) : MeasOutcome :=
  if dev < -(band : Int) then below else if (band : Int) < dev then above else .pass

/-- The deviation of a value from its expected value (R131). -/
def deviation (q : Quantity) (value expected : Int) : Int :=
  match q with
  | .magnitude => value - expected
  | .angle => foldAngle (value - expected)
  | .frequency => value - expected

/-- A stop event taken by a TIMING measurement, with its reference instant (R128, R131, R132). A stop whose instant lies after the
window expiry instant leaves a NO_OPERATE measurement TIMING: DESIGN CHOICE, log 54. -/
def State.stopMeas (s : State) (m : Fin 32) (d : MeasDef) (start ref : Tick) (poor : Bool) : State :=
  let (lo, hi) := orderTicks start ref
  match d.kind with
  | .time nominal _ _ =>
    let tm := Tick.diff start ref
    s.judge m d (bandOutcome (tm - nominal) d.kind.band .early .late) (some tm) (some ref) poor lo hi
  | .value _ q expected _ _ =>
    match valueAt s.mu.meas[m].history s.mu.meas[m].truncated ref with
    | none => s.finish m d (s.result m d .voided none (some ref) (some .history))
    | some v => s.judge m d (bandOutcome (deviation q v expected) d.kind.band .low .high) (some v) (some ref) poor lo hi
  | .noOperate _ =>
    match s.mu.meas[m].expiry with
    | some x =>
      if Tick.le ref x then s.judge m d .unexpected (some (Tick.diff start ref)) (some ref) poor lo hi else s
    | none => s

/-- The start of a measurement at a reference instant (R126). -/
def Measurement.begin (x : Measurement) (d : MeasDef) (ref : Tick) (poor : Bool) : Measurement :=
  { x with
    live := .timing
    start := some ref
    expiry := match d.kind with
      | .noOperate w => some (Tick.plus ref w)
      | .time _ _ _ => none
      | .value _ _ _ _ _ => none
    startPoor := poor }

/-- One measurement takes an event with its reference instant (R126, R128). -/
def State.takeEvent (s : State) (e : MuEvent) (ref : Tick) (poor : Bool) (m : Fin 32) : State :=
  let x := s.mu.meas[m]
  match x.live, x.definition with
  | .waitingStart, some d =>
    match d.start with
    | .onEvent r occurrence =>
      if r = e then
        let x' := { x with occ := x.occ + 1 }
        s.putMeas m (if x.occ + 1 = occurrence then x'.begin d ref poor else x')
      else s
    | .runStart => s
  | .timing, some d =>
    match x.start with
    | some start => if d.stop = e then s.stopMeas m d start ref poor else s
    | none => s
  | _, _ => s

/-- An event taken by each measurement, in order M0 to M31 (R136). -/
def State.takeEvents (s : State) (w : WaitingEvent) : State :=
  (List.finRange 32).foldl (fun s m => s.takeEvent w.event w.ref w.poor m) s

/-- The measurement is TIMING, reads a value, and the event stops it (R128, R130). -/
def Measurement.readsAt (x : Measurement) (e : MuEvent) : Bool :=
  match x.live, x.definition with
  | .timing, some d => d.stop == e && (match d.kind with
    | .value _ _ _ _ _ => true
    | .time _ _ _ => false
    | .noOperate _ => false)
  | _, _ => false

/-- An event waits at MU while the entries and steps of the frame boundary of this microsecond are still to be made: one that
stops a VALUE measurement at or after that boundary, where the changed value is the one in force (R130), and so every later one, so
that events are taken in the order in which they came. That it waits there is a DESIGN CHOICE, log 72. -/
def State.eventWaits (s : State) (w : WaitingEvent) : Bool :=
  match s.boundaryNow with
  | some b => !s.mu.waiting.isEmpty || (Tick.le b w.ref && s.mu.meas.any (fun x => x.readsAt w.event))
  | none => false

/-- An event handed to MU while RUNNING: it waits for the boundary, or each measurement takes it (R124, R130, R136). -/
def State.muEvent (s : State) (e : MuEvent) (ref : Tick) (poor : Bool) : State :=
  let w : WaitingEvent := { event := e, ref := ref, poor := poor }
  if s.running then
    if s.eventWaits w then { s with mu := { s.mu with waiting := s.mu.waiting ++ [w] } } else s.takeEvents w
  else s

/-- The events that wait at MU are taken, in the order in which they came (R130; log 72). -/
def State.settleEvents (s : State) : State :=
  if s.running then s.mu.waiting.foldl State.takeEvents { s with mu := { s.mu with waiting := [] } } else s

/-- The start boundary as the RUN_START reference instant (R124, R126). -/
def Measurement.runStart (x : Measurement) (b : Tick) : Measurement :=
  match x.live, x.definition with
  | .waitingStart, some d =>
    match d.start with
    | .runStart => x.begin d b false
    | .onEvent _ _ => x
  | _, _ => x

/-! ### Value histories (R130) -/

/-- The quantity of a channel's setpoint in force. -/
def Channel.quantity (c : Channel) : Quantity → Int
  | .magnitude => c.mag
  | .angle => c.angle
  | .frequency => c.freq

/-- A pair joins a history; the oldest leaves a full one, which is then truncated. -/
def Measurement.record (x : Measurement) (t : Tick) (v : Int) : Measurement :=
  let newest := match x.history.getLast? with
    | some p => p.2
    | none => 0
  if v = newest then x
  else if 64 ≤ x.history.length then { x with history := x.history.tail ++ [(t, v)], truncated := true }
  else { x with history := x.history ++ [(t, v)] }

/-- The setpoints in force changed at a boundary: the histories of VALUE measurements follow. -/
def Measurement.follow (x : Measurement) (channels : Vector Channel 10) (t : Tick) : Measurement :=
  match x.live, x.definition with
  | .waitingStart, some d =>
    match d.kind with
    | .value c q _ _ _ => x.record t (channels[c].quantity q)
    | .time _ _ _ => x
    | .noOperate _ => x
  | .timing, some d =>
    match d.kind with
    | .value c q _ _ _ => x.record t (channels[c].quantity q)
    | .time _ _ _ => x
    | .noOperate _ => x
  | _, _ => x

def State.followSetpoints (s : State) (t : Tick) : State :=
  { s with mu := { s.mu with meas := s.mu.meas.map (fun x => x.follow s.ws.channels t) } }

/-! ### The window and the close (R132, R135, R138) -/

/-- One measurement resolved at a close (R135). -/
def State.resolve (s : State) (reason : CloseReason) (closeAt : Tick) (m : Fin 32) : State :=
  let x := s.mu.meas[m]
  match x.definition with
  | none => s
  | some d =>
    match x.live with
    | .waitingStart => s.finish m d (s.result m d .notRun none none none)
    | .timing =>
      match d.kind with
      | .time _ _ _ => s.finish m d (s.result m d .notOperated none none none)
      | .value _ _ _ _ _ => s.finish m d (s.result m d .notOperated none none none)
      | .noOperate _ =>
        if reason = .completed then s.judge m d .pass none none false (x.start.getD closeAt) closeAt
        else s.finish m d (s.result m d .notRun none none none)
    | .inactive => s
    | .done => s

/-- Every enabled measurement that is not DONE resolved, in order M0 to M31 (R135). -/
def State.resolveAll (s : State) (reason : CloseReason) (closeAt : Tick) : State :=
  (List.finRange 32).foldl (fun s m => s.resolve reason closeAt m) s

/-- Measurement `m` is enabled in the run's mask. -/
def State.enabled (s : State) (m : Fin 32) : Bool :=
  match s.sq.options with
  | some o => inSet o.mask m.val
  | none => false

/-- The outcomes of the enabled measurements. -/
def State.outcomes (s : State) : List MeasOutcome :=
  (List.finRange 32).filterMap (fun m => if s.enabled m then s.mu.meas[m].result.map MeasResult.outcome else none)

/-- The count of each of the nine outcomes (R138). -/
def countOutcomes (l : List MeasOutcome) : Vector Nat 9 :=
  Vector.ofFn (fun i => (l.filter (fun o => o.index == i)).length)

/-- A failing outcome: EARLY, LATE, LOW, HIGH, UNEXPECTED or NOT_OPERATED (R138). -/
def MeasOutcome.failing : MeasOutcome → Bool
  | .pass => false
  | .early => true
  | .late => true
  | .low => true
  | .high => true
  | .unexpected => true
  | .voided => false
  | .notOperated => true
  | .notRun => false

/-- The run verdict (R138). -/
def verdictOf (l : List MeasOutcome) : Verdict :=
  if l.any MeasOutcome.failing then .fail
  else if l.all (· == .pass) then .pass
  else .inconclusive

end Sys2Proof.Machine
end

