-- ==== Sys2Proof/Machine/Exits.lean ====
section
/-! DEFINITION. What meets an exit or a start (R56 to R64) and what a met peer trigger makes on the ring: messages,
proposals and shared events (R159, R166, R169, R173). -/

namespace Sys2Proof.Machine

/-! ### Messages (R159, R192) -/

/-- Which messages are originated in which ring state (R159). -/
def MsgBody.maySend (b : MsgBody) (r : RingState) : Bool :=
  match b with
  | .beacon _ => r != .down
  | .abort _ _ => r != .down
  | .propose _ _ _ _ => r == .up
  | .accept _ _ _ => r == .up
  | .decline _ _ _ => r == .up
  | .commit _ _ _ => r == .up
  | .withdraw _ _ => r == .up
  | .event _ _ _ => r == .up
  | .undefined _ _ => false

/-- A message of the part's own put on RING_TX with hop count 1 (R192), where R159 lets it be originated. -/
def State.send (s : State) (b : MsgBody) : State :=
  if b.maySend s.pr.ring then
    { s with out := { s.out with ring := s.out.ring ++ [{ orig := s.pr.node, hop := 1, body := b }] } }
  else s

/-- Another node's message put on RING_TX with its hop count raised by 1 (R159). -/
def State.forward (s : State) (m : Message) : State :=
  { s with out := { s.out with ring := s.out.ring ++ [{ m with hop := m.hop + 1 }] } }

/-- A PEER_EVENT record (R176). -/
def State.peerRecord (s : State) (i : PeerInfo) : State := s.commit (.peerEvent i)

/-- A shared event sent as an EVENT message while UP, and counted as unsent otherwise (R173). -/
def State.sendShared (s : State) (e : SharedEvent) (dev : Nat) : State :=
  if s.pr.ring = .up then s.send (.event e dev s.tq)
  else { s with pr := { s.pr with unsent := s.pr.unsent + 1 } }

/-! ### Proposals (R166, R169) -/

/-- COMMIT is sent, 2,000 µs ahead of device time now, once no member is still to accept (R169). -/
def State.commitIfAccepted (s : State) : State :=
  match s.pr.proposal.role, s.pr.proposal.prop with
  | .proposer, some p =>
    if s.pr.proposal.toAccept = 0 && s.pr.proposal.tc.isNone then
      let tc := (s.dev + 2000) % devModulus
      State.send { s with pr := { s.pr with proposal := { s.pr.proposal with tc := some tc } } }
        (.commit s.joint p.number tc)
    else s
  | _, _ => s

/-- A PROPOSE sent, and this part the proposer (R166). A deferred proposal is thereby dropped. -/
def State.propose (s : State) (target : Option (Fin 64)) (mode : PeerMode) : State :=
  let p : Proposal := { proposer := s.pr.node, number := s.pr.nextNumber, target := target, mode := mode }
  let s1 := { s with pr := { s.pr with
    nextNumber := s.pr.nextNumber + 1
    proposal := { role := .proposer, prop := some p, toAccept := setMember s.pr.memberSet s.pr.node.val false,
                  sentAt := some s.tb.et, tc := none, late := none } } }
  let s2 := s1.send (.propose s.joint p.number target mode)
  (s2.peerRecord (.proposed p)).commitIfAccepted

/-! ### Exits (R60, R61, R64) -/

/-- The boundary at which an exit met now is made: the first at or after now, and after the entry boundary (R61). One on the count
that this microsecond skips, and still to be given, is not before now: DESIGN CHOICE, log 82. -/
def State.exitBoundary (s : State) : Tick :=
  match s.boundaryNow with
  | some b => if s.sq.entryBoundary = some b then s.boundaryAfter b else b
  | none => s.followingBoundary

/-- The active state's first exit makes the pending transition, a proposal or the held trigger; a later one is
disregarded (R61, R64). The answer says how the meeting fared (R63). The instant kept with the held trigger is the present ET, also
for an exit met on a count that a correction skips: DESIGN CHOICE, log 78. -/
def State.meetExit (s : State) (cause : ExitCause) (target : Fin 64) (mode : PeerMode) (boundary : Tick) :
    State × AdvanceResult :=
  if s.sq.pendingTr.isSome || s.sq.heldDue.isSome then (s, .late)
  else if s.pr.holds then
    if s.sq.held.isSome then (s, .late)
    else ({ s with sq := { s.sq with held := some { cause := cause, at' := s.tb.et } } }, .held)
  else if mode = .alone then
    ({ s with sq := { s.sq with pendingTr := some { target := target, cause := cause, boundary := boundary } } }, .met)
  else
    (State.propose { s with sq := { s.sq with held := some { cause := cause, at' := s.tb.et } } } (some target) mode,
      .proposed)

/-- Each trigger of the active state whose condition `met` says is met, in index order (R60). -/
def State.meetTriggers (s : State) (met : Cond → Bool) (boundary : Tick) : State :=
  if s.running then
    s.triggers.zipIdx.foldl
      (fun s ti => if met ti.1.cond then (s.meetExit (.trigger ti.2) ti.1.target ti.1.mode boundary).1 else s) s
  else s

/-! ### Starts (R56 to R58) -/

/-- A start condition met now: the start is pending at the first boundary at or after now, or in a joint run a START
proposal is made. A start already pending, and a role already taken, leave it without effect. -/
def State.meetStart (s : State) : State :=
  match s.sq.runState, s.sq.options with
  | .armed, some o =>
    if s.sq.startPending.isSome then s
    else if o.joint = 0 then { s with sq := { s.sq with startPending := some s.nextBoundary } }
    else if s.pr.proposal.role = .idle then s.propose none .preempt
    else s
  | _, _ => s

/-- The AT_TIME condition of an ARMED run whose start has not been met stands met now (R57). -/
def State.atTimeStands (s : State) : Bool :=
  match s.sq.runState, s.sq.options with
  | .armed, some o =>
    match o.start with
    | .atTime t =>
      s.sq.startPending.isNone && (o.joint == 0 || s.pr.proposal.role == .idle) && decide (t ≤ s.dev)
    | .command => false
    | .input _ _ => false
    | .peer => false
  | _, _ => false

end Sys2Proof.Machine
end

