-- ==== Sys2Proof/Machine/Synth.lean ====
section
/-! DEFINITION. The waveform synthesizer and the sample link (chapter 5): what an entry, a ramp step, a parting, a
completed closing and a frame do to a channel, and how a frame is kept or delivered. -/

namespace Sys2Proof.Machine

def State.putChannel (s : State) (c : Fin 10) (x : Channel) : State :=
  { s with ws := { s.ws with channels := upd s.ws.channels c x } }

/-- The hardware maximum setpoint of a channel (R76). -/
def hardwareMax (c : Fin 10) : Nat := if c.val < 6 then 320000 else 300000

/-- The declared maximum; UNDECLARED and FAULT hold none (R76). -/
def Declaration.maximum : Declaration → Option Nat
  | .ready m => some m
  | .undeclared => none
  | .fault => none

/-! ### The start of a run (R81) and an entry (R82 to R84) -/

/-- A channel at the start boundary, before the first entry (R81). -/
def Channel.atStart (x : Channel) (r0 : Phase) (onOpenPole : Bool) : Channel :=
  { x with
    acc := r0
    amp := 0
    dc := 0
    mag := 0
    angle := 0
    freq := 0
    sLast := 0
    uncutLast := 0
    saturated := false
    intr := if onOpenPole then .interrupted else .conducting
    resume := false
    handover := none }

/-- A setpoint's amplitude, phase offset and increment taken (R82). -/
def Channel.setpoint (x : Channel) (p : Setpoint) : Channel :=
  { x with
    mag := p.mag
    angle := p.angle
    freq := p.freq
    amp := amplitude p.mag
    phi := phaseOffset p.angle x.phaseTrim
    inc := increment p.freq }

/-- DC continuity at an entry or a resumption (R84, R95), with the sample the channel comes from. -/
def Channel.continuity (x : Channel) (tau : Option Nat) (sLast : Int) : Channel :=
  match tau with
  | none => { x with dc := 0 }
  | some t =>
    let d0 := if x.intr = .interrupted || x.forced then 0 else sLast - acTerm x.amp x.phi x.acc
    { x with dc := d0, kq := decayFactor t }

/-- An entry's stages for one channel (R82, R83, R84). -/
def Channel.enter (x : Channel) (p : Setpoint) (anchor : Option Phase) : Channel :=
  let x1 := x.setpoint p
  let x2 := match anchor with
    | some r => { x1 with acc := r }
    | none => x1
  x2.continuity p.tau x.sLast

/-- WS takes the setpoints, the anchor and the ramp of an entered record (R82 to R84, R90). -/
def Synth.enter (ws : Synth) (b : LiveBody) (ramp : Option RampSpec) (anchored : Bool) (boundary : Tick) : Synth :=
  { ws with
    channels := ws.channels.mapFinIdx (fun i x h =>
      x.enter (b.setpoints[i]) (if anchored then some ws.ref else none))
    ramp := ramp.map (fun r => { steps := 0, next := Tick.plus boundary r.dwell, ended := false }) }

/-! ### Ramps (R90 to R92) -/

/-- A stepped quantity brought into its range, and whether it had to be (R91). -/
def stepQuantity (q : Quantity) (value delta : Int) (maximum : Nat) : Int × Bool :=
  let v := value + delta
  match q with
  | .magnitude => if v < 0 then (0, true) else if (maximum : Int) < v then (maximum, true) else (v, false)
  | .angle => if v < -18000 || 17999 < v then (foldAngle v, true) else (v, false)
  | .frequency => if v < 5000 then (5000, true) else if 1000000 < v then (1000000, true) else (v, false)

/-- A channel's ramp step: the quantity and what it feeds (R92), and whether it was clamped. -/
def Channel.rampStep (x : Channel) (q : Quantity) (delta : Int) : Channel × Bool :=
  let r := stepQuantity q (x.quantity q) delta (x.decl.maximum.getD 0)
  match q with
  | .magnitude => ({ x with mag := r.1.toNat, amp := amplitude r.1.toNat }, r.2)
  | .angle => ({ x with angle := r.1, phi := phaseOffset r.1 x.phaseTrim }, r.2)
  | .frequency => ({ x with freq := r.1.toNat, inc := increment r.1.toNat }, r.2)

/-- The channel takes part in a step: in the mask and not forced (R91). -/
def stepped (mask : BitVec 10) (x : Channel) (i : Nat) : Bool := inSet mask i && !x.forced

/-- One ramp step of every masked channel (R90, R91): the ramp ends at a clamp or at its last step. -/
def Synth.rampStep (ws : Synth) (r : RampSpec) (p : RampProgress) : Synth :=
  let clamped := (List.finRange 10).any (fun c =>
    stepped r.mask ws.channels[c] c.val && (ws.channels[c].rampStep r.quantity r.delta).2)
  { ws with
    channels := ws.channels.mapFinIdx (fun i x _ =>
      if stepped r.mask x i then (x.rampStep r.quantity r.delta).1 else x)
    ramp := some { steps := p.steps + 1, next := Tick.plus p.next r.dwell,
                   ended := clamped || p.steps + 1 == r.maxSteps } }

/-! ### Poles and channels (R93, R95) -/

/-- A channel whose pole parts: a conducting one is watched; one still INTERRUPTED loses its pending resumption, stays
INTERRUPTED and is handed over as natural (R93). -/
def Channel.part (x : Channel) (at' : Tick) : Channel :=
  match x.intr with
  | .conducting => { x with intr := .watching 0 at' }
  | .interrupted => { x with resume := false, handover := some (.natural at') }
  | .watching _ _ => x

/-- A channel whose pole's closing completes: an INTERRUPTED one is due to resume (R95). The resumption keeps no instant, so that a
completion and a boundary on the two counts of one correcting microsecond are one instant: DESIGN CHOICE, log 82. -/
def Channel.complete (x : Channel) : Channel :=
  if x.intr = .interrupted then { x with resume := true } else x

/-- The channels of a list changed by `f`, the others left. -/
def mapChannels (v : Vector Channel 10) (l : List (Fin 10)) (f : Channel → Channel) : Vector Channel 10 :=
  v.mapFinIdx (fun i x h => if l.contains ⟨i, h⟩ then f x else x)

/-- The resumption at a boundary (R95), with the DC continuity of the active state and `s_last` taken as 0. -/
def Channel.resumed (x : Channel) (tau : Option Nat) : Channel :=
  if x.resume then ({ x with intr := .conducting, resume := false } : Channel).continuity tau 0 else x

/-- Every resumption due at a boundary made, before its frame (R88, R95). -/
def State.resumeChannels (s : State) : State :=
  { s with ws := { s.ws with channels := s.ws.channels.mapFinIdx (fun i x h =>
      x.resumed (match s.activeBody with
        | some b => (b.setpoints[i]).tau
        | none => none)) } }

/-! ### The frame (R85 to R88, R93, R94) -/

/-- A watched frame interrupts at an uncut sample of 0 or a change of sign (R93). -/
def crosses (uncut last : Int) : Bool := uncut == 0 || (decide (0 < uncut) && decide (last < 0)) || (decide (uncut < 0) && decide (0 < last))

/-- The interruption state after the watch of one frame at boundary `b` (R93, R94), with the handover it brings. A parting and a
boundary on the two counts of one correcting microsecond are ordered by their counts, so that the frame is watched where the pole
parted on the skipped one: DESIGN CHOICE, log 82. -/
def Channel.watch (x : Channel) (b : Tick) (uncut : Int) : Interruption × Option Handover :=
  match x.intr with
  | .watching n since =>
    if Tick.lt since b then
      if crosses uncut x.uncutLast then (.interrupted, some (.natural b))
      else if 200 ≤ n + 1 then (.interrupted, some (.forced b))
      else (.watching (n + 1) since, x.handover)
    else (.watching n since, x.handover)
  | .conducting => (.conducting, x.handover)
  | .interrupted => (.interrupted, x.handover)

/-- The output before its clamp, stage 7 of R87. -/
def Channel.unclamped (x : Channel) (s : Int) : Int := roundDiv (s * (1000000 + x.gain)) 1000000 + x.offset

/-- One channel's frame, stages 1 to 8 (R85 to R88). -/
def Channel.frame (x : Channel) (b : Tick) : Channel :=
  let uncut := acTerm x.amp x.phi x.acc + x.dc
  let w := x.watch b uncut
  let cut := w.1 = .interrupted || x.forced
  let s := if cut then 0 else uncut
  let d := if cut then 0 else x.dc
  let raw := x.unclamped s
  let out := clampInt raw (-524287) 524287
  { x with
    intr := w.1
    handover := w.2
    dc := Int.tdiv (d * x.kq) (2 ^ 24)
    sLast := s
    uncutLast := uncut
    outLast := out
    saturated := raw != out
    acc := x.acc + x.inc }

/-- The SATURATION conditions of a frame handed to SQ (R87). R87 orders no channels of one boundary: the channel order is a DESIGN
CHOICE, log 65. -/
def State.handSaturation (s : State) (before : Vector Channel 10) (b : Tick) : State :=
  (List.finRange 10).foldl
    (fun s c =>
      if !before[c].saturated && s.ws.channels[c].saturated then s.openImpairment .saturation (some c.val) b
      else if before[c].saturated && !s.ws.channels[c].saturated then s.endImpairment .saturation (some c.val) b
      else s) s

/-- The channel frames of a boundary while RUNNING (R85); outside RUNNING, or with the stream enable clear, none (R89). -/
def State.computeChannels (s : State) (b : Tick) : State :=
  if s.running && s.sq.streamEnable then
    State.handSaturation { s with ws := { s.ws with channels := s.ws.channels.map (fun x => x.frame b) } }
      s.ws.channels b
  else s

/-- The sample frame of a boundary (R96), with zero samples outside RUNNING or with the stream enable clear (R89). -/
def State.sampleFrame (s : State) (b : Tick) : SampleFrame :=
  let dev := devOf s.tb.offset b
  { seconds := BitVec.ofNat 16 (devSeconds dev)
    micros := devMicros dev
    runState := s.sq.runState
    active := if s.running then s.sq.active else none
    samples := if s.running && s.sq.streamEnable then s.ws.channels.map Channel.outLast else Vector.replicate 10 0
    pattern := s.biu.driven
    streamEnable := s.sq.streamEnable
    run := s.runNumber }

/-! ### The sample link (R96 to R98) -/

/-- The number of the next frame delivered (R96). -/
def Synth.nextFrame (ws : Synth) : BitVec 16 :=
  match ws.lastFrame with
  | some n => n + 1
  | none => 0

/-- A frame delivered with the next frame number (R96). -/
def State.deliver (s : State) (f : SampleFrame) (held : Bool) : State :=
  { s with
    ws := { s.ws with lastFrame := some s.ws.nextFrame }
    out := { s.out with link := s.out.link ++ [{ number := s.ws.nextFrame, held := held, frame := f }] } }

/-- A frame kept at a boundary with SLHOLD high; the frame it replaces is lost, a slip of the run if it was produced in that run
(R97, R98). That a RUNNING frame of an earlier run, lost while a new run is RUNNING, is no slip of the new one: DESIGN CHOICE, log
77. -/
def State.keepFrame (s : State) (f : SampleFrame) (b : Tick) : State :=
  match s.ws.kept with
  | none => { s with ws := { s.ws with kept := some f } }
  | some old =>
    let s1 := { s with ws := { s.ws with kept := some f, replaced := s.ws.replaced + 1 } }
    if old.runState = .running ∧ old.run = s.runNumber then s1.openImpairment .streamSlip none b else s1

/-- The frame of a boundary goes to the link (R97): kept with SLHOLD high, else its turn to be delivered comes. -/
def State.produceFrame (s : State) (b : Tick) : State :=
  let f := s.sampleFrame b
  if s.pins.slhold then s.keepFrame f b
  else { s with ws := { s.ws with linkQueue := s.ws.linkQueue ++ [f] } }

/-- R is advanced once at each boundary, before its entries (R80, R83); a start boundary anchors it instead. -/
def State.openBoundary (s : State) : State :=
  if s.now.opened then s
  else { s with
    now := { s.now with opened := true }
    ws := { s.ws with ref := s.ws.ref + s.ws.nominalInc } }

/-! ### READ CHANNELS (R99) -/

/-- One channel as READ CHANNELS gives it. -/
def Channel.picture (x : Channel) : ChannelPicture where
  decl := x.decl
  forced := x.forced
  gain := x.gain
  phaseTrim := x.phaseTrim
  offset := x.offset
  mag := x.mag
  angle := x.angle
  freq := x.freq
  amp := x.amp
  dc := x.dc
  outLast := x.outLast
  intr := x.intr
  saturated := x.saturated

/-- The state of WS and the link as READ CHANNELS gives it. -/
def State.channelsPicture (s : State) : ChannelsPicture where
  channels := s.ws.channels.map Channel.picture
  ramp := s.ws.ramp
  ref := s.ws.ref
  nominalInc := s.ws.nominalInc
  slhold := s.pins.slhold
  kept := s.ws.kept.isSome
  lastFrame := s.ws.lastFrame
  replaced := s.ws.replaced

/-- The picture taken at a frame boundary (R99). -/
def State.showChannels (s : State) : State := { s with ws := { s.ws with shown := s.channelsPicture } }

end Sys2Proof.Machine
end

