-- ==== Sys2Proof/Machine/Breakers.lean ====
section
/-! DEFINITION. The breaker simulator (chapter 6): pole changes and what they hand on, breaker events, trips, closes,
feedback, and the freezing at a close. -/

namespace Sys2Proof.Machine

def State.putBreaker (s : State) (k : Fin 4) (b : Breaker) : State :=
  { s with bs := { s.bs with breakers := upd s.bs.breakers k b } }

def State.pole (s : State) (k : Fin 4) (p : Fin 3) : Pole := s.bs.breakers[k].poles[p]

def State.putPole (s : State) (k : Fin 4) (p : Fin 3) (x : Pole) : State :=
  s.putBreaker k { s.bs.breakers[k] with poles := upd s.bs.breakers[k].poles p x }

/-! ### Events (R117, R118) -/

/-- A breaker event with no channel, no reason and no feedback. -/
def plainEvent (k : Fin 4) (pole : Option (Fin 3)) (kind : BreakerEventKind) (at' : Tick) (trip : Option Nat)
    (late : Bool) : BreakerEvent :=
  { k := k, pole := pole, kind := kind, at' := at', trip := trip, late := late, channel := none, reason := none,
    feedback := none }

/-! ### What the breakers hand on (R105, R117, R118) -/

/-- A BREAKER condition that a change of breaker `k` from `before` to `after` makes hold (R60). -/
def madeToHold (k : Fin 4) (before after : Vector Pole 3) (c : Cond) : Bool :=
  match c with
  | .breaker k' b => k' == k && b.holds after && !b.holds before
  | .input _ _ => false
  | .remoteInput _ _ _ => false
  | .peer => false
  | .advance => false
  | .rampDone => false

/-- What BS hands to the other blocks: a pole change, with the poles of its breaker before and after it; a breaker event; the
failure of a pole to open or close. -/
inductive BreakerHanding where
  | change (k : Fin 4) (before after : Vector Pole 3)
  | event (e : BreakerEvent)
  | failure (e : BreakerEvent) (p : Fin 3)

/-- A handing taken: SQ judges its BREAKER conditions on the pole states that the change left (R60, R105); MU and, of a shared
breaker, the ring take the event (R117); a failure raises BREAKER_FAULT (R118). -/
def State.takeHanding (s : State) : BreakerHanding → State
  | .change k before after => s.meetTriggers (madeToHold k before after) s.exitBoundary
  | .event e =>
    let s1 := s.muEvent (.breaker e.k e.kind) e.at' false
    if s.bs.breakers[e.k].cfg.shared then s1.sendShared (.breaker e.k e.pole e.kind) (devOf s.tb.offset e.at') else s1
  | .failure e p => s.raise (.breakerFault e.k p e.kind e.trip)

/-- BS at work on one event: the state as it stands, its BREAKER_EVENT records committed, and what BS has still to hand on, in
the order of R105. -/
structure BreakerStep where
  sys : State
  handings : List BreakerHanding

/-- What BS does of one event: its changes and its records first, so that these take consecutive numbers (R145), then each handing
in the order of R105. R105 and R117 hand to each block independently: the records before SQ and MU act is log 14. -/
def State.onBreakers (s : State) (f : BreakerStep → BreakerStep) : State :=
  let x := f { sys := s, handings := [] }
  x.handings.foldl State.takeHanding x.sys

/-- The state changed by nothing that is handed on. -/
def BreakerStep.map (x : BreakerStep) (f : State → State) : BreakerStep := { x with sys := f x.sys }

/-- A breaker event recorded, and to be handed on (R117). -/
def BreakerStep.publish (x : BreakerStep) (e : BreakerEvent) : BreakerStep :=
  { sys := x.sys.commit (.breakerEvent e), handings := x.handings ++ [.event e] }

/-- A failure to open or close: its event, then the BREAKER_FAULT notice (R118). -/
def BreakerStep.publishFailure (x : BreakerStep) (e : BreakerEvent) (p : Fin 3) : BreakerStep :=
  { sys := x.sys.commit (.breakerEvent e), handings := x.handings ++ [.event e, .failure e p] }

/-! ### Pole changes (R105) -/

/-- A pole takes a new record: BIU's outputs follow at once, and SQ is to judge its BREAKER conditions (R105). -/
def BreakerStep.changePole (x : BreakerStep) (k : Fin 4) (p : Fin 3) (pole : Pole) : BreakerStep :=
  let s1 := (x.sys.putPole k p pole).driveOutputs
  { sys := s1, handings := x.handings ++ [.change k x.sys.bs.breakers[k].poles s1.bs.breakers[k].poles] }

def State.mapAssoc (s : State) (k : Fin 4) (p : Fin 3) (f : Channel → Channel) : State :=
  { s with ws := { s.ws with channels := mapChannels s.ws.channels (s.assoc k p) f } }

/-- Every associated channel has been handed back as INTERRUPTED (R108). -/
def State.channelsCut (s : State) (k : Fin 4) (p : Fin 3) : Bool :=
  (s.assoc k p).all (fun c => s.ws.channels[c].intr == .interrupted && s.ws.channels[c].handover.isNone)

/-- An ARCING pole whose last channel has been handed over moves to OPEN (R108). -/
def BreakerStep.openPole (x : BreakerStep) (at' : Tick) (k : Fin 4) (p : Fin 3) : BreakerStep :=
  let pole := x.sys.pole k p
  if pole.state = .arcing ∧ x.sys.channelsCut k p then
    (x.changePole k p { pole with state := .opened }).publish (plainEvent k (some p) .poleOpen at' pole.opTrip false)
  else x

/-- BREAKER_OPEN when the changes from `before` left every pole OPEN (R108, R116, R117). -/
def BreakerStep.announceOpen (x : BreakerStep) (before : Vector Pole 3) (k : Fin 4) (at' : Tick) (trip : Option Nat) :
    BreakerStep :=
  if !polesAllOpen before && polesAllOpen x.sys.bs.breakers[k].poles then
    x.publish (plainEvent k none .breakerOpen at' trip false)
  else x

/-- BREAKER_CLOSED when the changes from `before` left every pole CLOSED (R112, R115, R117). -/
def BreakerStep.announceClosed (x : BreakerStep) (before : Vector Pole 3) (k : Fin 4) (at' : Tick) : BreakerStep :=
  if !polesAllClosed before && polesAllClosed x.sys.bs.breakers[k].poles then
    x.publish (plainEvent k none .breakerClosed at' none false)
  else x

/-- The trip number of the last pole, in the order A, B, C, that the changes from `before` brought to OPEN. -/
def lastOpenedTrip (before after : Vector Pole 3) : Option Nat :=
  (List.finRange 3).foldl
    (fun t p => if before[p].state != .opened && after[p].state == .opened then after[p].opTrip else t) none

/-- A channel of pole `p` has a forced interruption still to be handed over (R94). -/
def State.awaitsForced (s : State) (k : Fin 4) (p : Fin 3) : Bool :=
  (s.assoc k p).any (fun c => match s.ws.channels[c].handover with
    | some (.forced _) => true
    | some (.natural _) => false
    | none => false)

/-- A pole opened in its turn: not before an earlier pole of its breaker whose forced interruption is still to be handed over
(R105, R108). -/
def BreakerStep.openInTurn (x : BreakerStep) (at' : Tick) (k : Fin 4) (p : Fin 3) : BreakerStep :=
  if (List.finRange 3).any (fun q => decide (q < p) && x.sys.awaitsForced k q) then x else x.openPole at' k p

/-- Every ARCING pole of breaker `k` that is done, and whose turn it is, opened in the order A, B, C, then BREAKER_OPEN (R105,
R108). -/
def BreakerStep.openDone (x : BreakerStep) (k : Fin 4) (at' : Tick) : BreakerStep :=
  let x1 := (List.finRange 3).foldl (fun x p => x.openInTurn at' k p) x
  x1.announceOpen x.sys.bs.breakers[k].poles k at'
    (lastOpenedTrip x.sys.bs.breakers[k].poles x1.sys.bs.breakers[k].poles)

/-- One pole parted at `at'`: POLE_PARTED, the watch of its channels, and POLE_OPEN for a pole with none (R108). -/
def BreakerStep.partPole (x : BreakerStep) (at' : Tick) (feedback : Option Tick) (k : Fin 4) (p : Fin 3) : BreakerStep :=
  let pole := x.sys.pole k p
  let x1 := (x.changePole k p { pole with state := .arcing, pending := none }).map
    (fun s => s.mapAssoc k p (fun c => c.part at'))
  let x2 := x1.publish { plainEvent k (some p) .poleParted at' pole.opTrip pole.late with feedback := feedback }
  if (x2.sys.assoc k p).isEmpty then x2.openPole at' k p else x2

/-- A group of poles of one breaker, one bit per pole, changed in the order A, B, C. -/
def forPoles (sel : BitVec 3) (f : BreakerStep → Fin 3 → BreakerStep) (x : BreakerStep) : BreakerStep :=
  (List.finRange 3).foldl (fun x p => if inSet sel p.val then f x p else x) x

/-- The poles of a breaker that meet a condition, as a set. -/
def polesWhere (b : Breaker) (f : Pole → Bool) : BitVec 3 :=
  (List.finRange 3).foldl (fun w p => if f b.poles[p] then setMember w p.val true else w) 0

/-- A group of poles parted at one instant, then BREAKER_OPEN when they leave every pole OPEN (R105, R108). -/
def BreakerStep.partGroup (x : BreakerStep) (k : Fin 4) (sel : BitVec 3) (at' : Tick) (feedback : Option Tick) :
    BreakerStep :=
  let x1 := forPoles sel (fun x p => x.partPole at' feedback k p) x
  x1.announceOpen x.sys.bs.breakers[k].poles k at'
    (lastOpenedTrip x.sys.bs.breakers[k].poles x1.sys.bs.breakers[k].poles)

/-! ### Operating times (R107, R112) -/

/-- `t_first` + opening time + scatter of the pole (R107). -/
def openingInstant (b : Breaker) (p : Fin 3) (tFirst : Tick) : Tick :=
  Tick.plus tFirst (b.cfg.opening + b.cfg.scatter[p])

/-- `t_first` + closing time + scatter of the pole (R112). -/
def closingInstant (b : Breaker) (p : Fin 3) (tFirst : Tick) : Tick :=
  Tick.plus tFirst (b.cfg.closing + b.cfg.scatter[p])

/-- The breaker is in FEEDBACK mode (R115). -/
def BreakerMode.isFeedback : BreakerMode → Bool
  | .simulated => false
  | .feedback _ => true

/-- The fail programme names trip `n` and pole `p` (R109). -/
def BreakerConfig.fails (c : BreakerConfig) (n : Nat) (p : Fin 3) : Bool :=
  match c.fail with
  | some (m, poles) => m == n && inSet poles p.val
  | none => false

/-! ### Trips (R106 to R110) -/

/-- FAIL_TO_OPEN of a pole with its notice (R109, R115). -/
def BreakerStep.failToOpen (x : BreakerStep) (k : Fin 4) (p : Fin 3) (at' : Tick) (trip : Option Nat) (late : Bool) :
    BreakerStep :=
  x.publishFailure (plainEvent k (some p) .failToOpen at' trip late) p

/-- A CLOSED pole takes trip `n` with its operation due at `due`: it fails by the programme (R109), fails at a deadline
already past (R115), or goes to OPENING (R107). That an instant on the count which the microsecond of the taking skips is past, the
taking being on the other: DESIGN CHOICE, log 82. -/
def BreakerStep.tripPole (x : BreakerStep) (k : Fin 4) (n : Nat) (due taken : Tick) (p : Fin 3) : BreakerStep :=
  let b := x.sys.bs.breakers[k]
  let pole := b.poles[p]
  let late := Tick.lt due taken
  if b.cfg.fails n p then
    if late then x.failToOpen k p taken (some n) true
    else x.map (fun s => s.putPole k p { pole with failure := some { at' := due, trip := n, late := false } })
  else if b.cfg.mode.isFeedback && late then x.failToOpen k p taken (some n) true
  else x.changePole k p { pole with state := .opening, pending := some due, late := late, opTrip := some n }

/-- The poles of a SIMULATED breaker in OPENING whose parting instant is reached at the taking (R107). -/
def State.reachedOpening (s : State) (k : Fin 4) (taken : Tick) : BitVec 3 :=
  if s.bs.breakers[k].cfg.mode.isFeedback then 0
  else polesWhere s.bs.breakers[k] (fun x => x.state == .opening && (match x.pending with
    | some t => Tick.le t taken
    | none => false))

/-- A trip counted, when a pole is made at its taking (R106). -/
def Breaker.countTrip (b : Breaker) : Breaker := { b with trips := min 65535 (b.trips + 1) }

/-- The number that a trip has at its taking, if any, is the one at which the programme fails it on pole `p` (R106, R109). -/
def Breaker.failsAtTaking (b : Breaker) (number : Option Nat) (p : Fin 3) : Bool := number.any (fun n => b.cfg.fails n p)

/-- A pole in CLOSING that holds no remembered trip remembers this one (R110). -/
def Pole.remember (x : Pole) (serial : Nat) (number : Option Nat) : Pole :=
  match x.state, x.remembered with
  | .closing, none => { x with remembered := some { serial := serial, number := number } }
  | _, _ => x

/-- A trip taken at `taken` on the poles of `sel`, its instants counted from `tFirst` (R106 to R110). One counted at its taking as
the number that the programme fails does nothing to a pole of the mask that is not CLOSED, so one in CLOSING does not remember it
(R109); one with no number yet is remembered (R110) and judged by its number at the completion (R112). Every selected pole goes
to OPENING, or fails, before any of them parts at once: DESIGN CHOICE, log 26. -/
def BreakerStep.takeTrip (x : BreakerStep) (k : Fin 4) (sel : BitVec 3) (tFirst taken : Tick) : BreakerStep :=
  if x.sys.running then
    let b0 := x.sys.bs.breakers[k]
    let counted := anyMade b0.poles
    let b1 := if counted then b0.countTrip else b0
    let number := if counted then some b1.trips else none
    let b2 := { b1 with
      serial := b1.serial + 1
      poles := b1.poles.mapFinIdx (fun i x h =>
        if inSet sel i && !b1.failsAtTaking number ⟨i, h⟩ then x.remember b1.serial number else x) }
    let x1 := x.map (fun s => s.putBreaker k b2)
    let closed := sel &&& polesWhere b0 (fun x => x.state == .closed)
    let x2 := forPoles closed (fun x p => x.tripPole k b1.trips (openingInstant b0 p tFirst) taken p) x1
    x2.partGroup k (closed &&& x2.sys.reachedOpening k taken) taken none
  else x

/-! ### Closing completions (R112) and remembered trips (R110) -/

/-- One pole completes its closing at `at'`: POLE_CLOSED, and its channels are due to resume (R95, R112). Of a FEEDBACK event
POLE_CLOSED alone carries the t_first, as POLE_PARTED does: DESIGN CHOICE, log 58. -/
def BreakerStep.completePole (x : BreakerStep) (at' : Tick) (feedback : Option Tick) (k : Fin 4) (p : Fin 3) : BreakerStep :=
  let pole := x.sys.pole k p
  let x1 := (x.changePole k p { pole with state := .closed, pending := none }).map
    (fun s => s.mapAssoc k p Channel.complete)
  x1.publish { plainEvent k (some p) .poleClosed at' none pole.late with feedback := feedback }

/-- Every pole of the breaker that remembers this trip learns its number at the count (R106, log 25). -/
def Breaker.numberTrip (b : Breaker) (serial number : Nat) : Breaker :=
  { b with poles := b.poles.map (fun x => match x.remembered with
    | some r => if r.serial = serial then { x with remembered := some { r with number := some number } } else x
    | none => x) }

/-- A remembered trip acted on at the completion (R112): counted if it has no number yet, then as R107 or R109. -/
def BreakerStep.actRemembered (x : BreakerStep) (at' : Tick) (k : Fin 4) (p : Fin 3) : BreakerStep :=
  let b := x.sys.bs.breakers[k]
  match b.poles[p].remembered with
  | none => x
  | some r =>
    let b1 := match r.number with
      | some _ => b
      | none => (b.countTrip).numberTrip r.serial b.countTrip.trips
    let n := r.number.getD b1.trips
    let x1 := x.map (fun s => (s.putBreaker k b1).putPole k p { b1.poles[p] with remembered := none })
    x1.tripPole k n (openingInstant b p at') at' p

/-- A group of poles completes at one instant: POLE_CLOSED of each, BREAKER_CLOSED, then remembered trips (R112). -/
def BreakerStep.completeGroup (x : BreakerStep) (k : Fin 4) (sel : BitVec 3) (at' : Tick) (feedback : Option Tick) :
    BreakerStep :=
  let x1 := forPoles sel (fun x p => x.completePole at' feedback k p) x
  let x2 := x1.announceClosed x.sys.bs.breakers[k].poles k at'
  forPoles sel (fun x p => x.actRemembered at' k p) x2

/-! ### FEEDBACK deadlines (R115, R116) -/

/-- Poles still OPENING at their deadline go back to CLOSED with FAIL_TO_OPEN, then BREAKER_CLOSED (R115). -/
def BreakerStep.openingDeadlines (x : BreakerStep) (k : Fin 4) (sel : BitVec 3) (at' : Tick) : BreakerStep :=
  let x1 := forPoles sel (fun x p =>
    let pole := x.sys.pole k p
    (x.changePole k p { pole with state := .closed, pending := none }).failToOpen k p at' pole.opTrip pole.late) x
  x1.announceClosed x.sys.bs.breakers[k].poles k at'

/-- Poles still CLOSING at their deadline go back to OPEN with FAIL_TO_CLOSE and no remembered trip, then BREAKER_OPEN
(R116). -/
def BreakerStep.closingDeadlines (x : BreakerStep) (k : Fin 4) (sel : BitVec 3) (at' : Tick) : BreakerStep :=
  let x1 := forPoles sel (fun x p =>
    let pole := x.sys.pole k p
    (x.changePole k p { pole with state := .opened, pending := none, remembered := none }).publishFailure
      (plainEvent k (some p) .failToClose at' none pole.late) p) x
  x1.announceOpen x.sys.bs.breakers[k].poles k at' none

/-! ### Closes (R111, R112) -/

/-- A trip source at ACTIVE: the published level of a local one, the last reported level of a remote one (R111). -/
def State.sourceActive (s : State) : Source → Bool
  | .localInput i => s.biu.inputs[i].published == .active
  | .remoteInput n i => s.remoteLevel n i == some .active

/-- A refused close publishes CLOSE_REFUSED for the breaker (R111). -/
def BreakerStep.refuseClose (x : BreakerStep) (k : Fin 4) (taken : Tick) (reason : RefuseReason) : BreakerStep :=
  x.publish { plainEvent k none .closeRefused taken none false with reason := some reason }

/-- A close taken at `taken`, its instants counted from `tFirst` (R111, R112, R116). An instant on the count which the microsecond
of the taking skips is past, as in a trip: DESIGN CHOICE, log 82. -/
def BreakerStep.takeClose (x : BreakerStep) (k : Fin 4) (tFirst taken : Tick) : BreakerStep :=
  if x.sys.running then
    let b := x.sys.bs.breakers[k]
    if !polesAllOpen b.poles then x.refuseClose k taken .notOpen
    else if b.cfg.trips.any (fun t => x.sys.sourceActive t.source) then x.refuseClose k taken .tripActive
    else
      let x1 := x.map (fun s => s.putBreaker k { b with closes := min 65535 (b.closes + 1) })
      let x2 := forPoles 7 (fun x p =>
        let due := closingInstant b p tFirst
        x.changePole k p { x.sys.pole k p with state := .closing, pending := some due, late := Tick.lt due taken }) x1
      if b.cfg.mode.isFeedback then
        x2.closingDeadlines k (polesWhere x2.sys.bs.breakers[k] (fun x => x.state == .closing && x.late)) taken
      else
        x2.completeGroup k (polesWhere x2.sys.bs.breakers[k] (fun x => x.state == .closing && (match x.pending with
          | some t => Tick.le t taken
          | none => false))) taken none
  else x

/-! ### Input events at the breakers (R106, R111, R113, R115, R116) -/

/-- A source's event to ACTIVE: its trips, breaker by breaker, then its closes (R106, R111). An input that two trip sources of one
breaker name makes two trips, and one that both its close sources name two closes, the second refused NOT_OPEN where the first left
the poles closing: DESIGN CHOICE, log 27. -/
def BreakerStep.sourceEvent (x : BreakerStep) (src : Source) (tFirst taken : Tick) : BreakerStep :=
  let x1 := (List.finRange 4).foldl (fun x k =>
    x.sys.bs.breakers[k].cfg.trips.foldl
      (fun x t => if t.source = src then x.takeTrip k t.poles tFirst taken else x) x) x
  (List.finRange 4).foldl (fun x k =>
    x.sys.bs.breakers[k].cfg.closes.foldl (fun x c => if c = src then x.takeClose k tFirst taken else x) x) x1

/-- A published event of a feedback input parts the OPENING poles, or completes the CLOSING ones (R115, R116). -/
def BreakerStep.feedbackEvent (x : BreakerStep) (i : Fin 16) (l : Level) (tFirst taken : Tick) : BreakerStep :=
  (List.finRange 4).foldl (fun x k =>
    if x.sys.bs.breakers[k].cfg.mode = .feedback i then
      match l with
      | .active => x.partGroup k (polesWhere x.sys.bs.breakers[k] (fun x => x.state == .opening)) taken (some tFirst)
      | .inactive =>
        x.completeGroup k (polesWhere x.sys.bs.breakers[k] (fun x => x.state == .closing)) taken (some tFirst)
    else x) x

/-- A published local input event handed to BS, which acts while RUNNING (R104). -/
def State.inputToBreakers (s : State) (i : Fin 16) (l : Level) (tFirst taken : Tick) : State :=
  if s.running then
    s.onBreakers (fun x =>
      let x1 := match l with
        | .active => x.sourceEvent (.localInput i) tFirst taken
        | .inactive => x
      x1.feedbackEvent i l tFirst taken)
  else s

/-- A remote input event handed to BS at its arrival, with its `t_first` on device time (R113). -/
def State.remoteToBreakers (s : State) (node : Fin 4) (i : Fin 16) (l : Level) (dev : Nat) : State :=
  if s.running then
    match l with
    | .active => s.onBreakers (fun x => x.sourceEvent (.remoteInput node i) (s.reachOf dev) s.tb.et)
    | .inactive => s
  else s

/-! ### Instants that fall due (R107, R109, R112, R115, R116; log 26) -/

/-- The earliest of the instants that are at or before `now`. -/
def earliestDue (now : Tick) (l : List Tick) : Option Tick :=
  (l.filter (fun t => Tick.le t now)).foldl (fun a t => match a with
    | none => some t
    | some u => if Tick.lt t u then some t else some u) none

/-- A pole that moves by itself at its pending instant: one in OPENING or in CLOSING (R107, R112, R115, R116). -/
def Pole.moves (x : Pole) : Bool := x.state == .opening || x.state == .closing

/-- Of the poles listed that move at `t`, those in state `st`, up to the first that moves from another state. -/
def leadingPoles (b : Breaker) (st : PoleState) (t : Tick) : List (Fin 3) → BitVec 3
  | [] => 0
  | p :: rest =>
    let x := b.poles[p]
    if x.moves && x.pending == some t then
      if x.state == st then setMember (leadingPoles b st t rest) p.val true else 0
    else leadingPoles b st t rest

/-- The poles of `k` in a state that move next: at the earliest due instant of all its poles, those that come first in the order
A, B, C, up to one that moves there from another state (R105; log 26). -/
def State.duePoles (s : State) (k : Fin 4) (st : PoleState) (feedback : Bool) : Option (Tick × BitVec 3) :=
  let b := s.bs.breakers[k]
  if s.running && b.cfg.mode.isFeedback == feedback then
    match earliestDue s.tb.et ((b.poles.toList.filter Pole.moves).filterMap Pole.pending) with
    | some t =>
      let sel := leadingPoles b st t (List.finRange 3)
      if sel = 0 then none else some (t, sel)
    | none => none
  else none

/-- The earliest due programmed failure of breaker `k`, with the poles that share its instant. -/
def State.dueFailures (s : State) (k : Fin 4) : Option (Tick × BitVec 3) :=
  let b := s.bs.breakers[k]
  if s.running then
    (earliestDue s.tb.et (b.poles.toList.filterMap (fun x => x.failure.map PendingFailure.at'))).map
      (fun t => (t, polesWhere b (fun x => x.failure.map PendingFailure.at' == some t)))
  else none

/-- Pending failures that fall due: FAIL_TO_OPEN of each pole, whatever its state (R109). -/
def BreakerStep.failuresDue (x : BreakerStep) (k : Fin 4) (sel : BitVec 3) (at' : Tick) : BreakerStep :=
  forPoles sel (fun x p =>
    let pole := x.sys.pole k p
    match pole.failure with
    | some f =>
      (x.map (fun s => s.putPole k p { pole with failure := none })).failToOpen k p at' (some f.trip) f.late
    | none => x) x

/-! ### Handovers (R93, R94, R108) -/

/-- A natural handover due at boundary `b` is made. One dated by the present count is not due at a boundary on the count that the
microsecond skips: DESIGN CHOICE, log 82. -/
def Channel.handNatural (x : Channel) (b : Tick) : Channel :=
  match x.handover with
  | some (.natural t) => if Tick.le t b then { x with handover := none } else x
  | some (.forced _) => x
  | none => x

/-- The natural handovers of a boundary, once its frame has been produced: each breaker's poles that are done open
(R93, R108). -/
def State.naturalHandovers (s : State) (b : Tick) : State :=
  if s.running then
    let s1 : State := { s with ws := { s.ws with channels := s.ws.channels.map (fun x => x.handNatural b) } }
    s1.onBreakers (fun x => (List.finRange 4).foldl (fun x k => x.openDone k b) x)
  else s

/-- The pole that a channel is associated with, if any (R102: at most one). -/
def State.poleOf (s : State) (c : Fin 10) : Option (Fin 4 × Fin 3) :=
  ((List.finRange 4).flatMap (fun k => (List.finRange 3).map (fun p => (k, p)))).find?
    (fun kp => (s.assoc kp.1 kp.2).contains c)

/-- A forced handover: FORCED_INTERRUPTION for the pole and the channel, before any POLE_OPEN it brings; then the poles that it
opens or that have waited for it (R94, R105, R108). -/
def State.forcedHandover (s : State) (c : Fin 10) (at' : Tick) : State :=
  let s1 := s.putChannel c { s.ws.channels[c] with handover := none }
  match s1.poleOf c with
  | some (k, p) =>
    let trip := (s1.pole k p).opTrip
    s1.onBreakers (fun x =>
      (x.publish { plainEvent k (some p) .forcedInterruption at' trip false with channel := some c }).openDone k at')
  | none => s1

/-- An earlier pole of the channel's breaker has a forced interruption to hand over (R105). -/
def State.forcedBefore (s : State) (c : Fin 10) : Bool :=
  match s.poleOf c with
  | some (k, p) =>
    (List.finRange 3).any (fun q => decide (q < p) && s.awaitsForced k q)
  | none => false

/-! ### ARM (R104) and the close (R119) -/

/-- The poles of a breaker at its initial position, with every live field and both counts cleared (R104). -/
def Breaker.atArm (b : Breaker) (isOpen : Bool) : Breaker :=
  { b with
    poles := Vector.replicate 3 { Pole.cold with state := if isOpen then .opened else .closed }
    trips := 0
    closes := 0
    serial := 0 }

/-- A pole frozen: its state kept, everything pending discarded (R119). -/
def Pole.freeze (x : Pole) : Pole := { x with pending := none, remembered := none, failure := none }

/-- BS frozen at a close (R119). -/
def BreakerSim.freeze (bs : BreakerSim) : BreakerSim :=
  { breakers := bs.breakers.map (fun b => { b with poles := b.poles.map Pole.freeze }) }

end Sys2Proof.Machine
end

