-- ==== Sys2Proof/Machine/Close.lean ====
section
/-! DEFINITION. How a run ends: the close (R66, R67), the unstarted end (R55), and the emergency stop (R69), with the
ABORT a joint run sends (R165). -/

namespace Sys2Proof.Machine

/-! ### The close (R67) -/

/-- Every open interval closed at the close instant (step 4 of R67). -/
def closeAllIntervals (l : List Interval) (at' : Tick) : List Interval :=
  l.map (fun i => if i.stop.isNone then { i with stop := some at' } else i)

/-- A channel at a close: nothing is resumed or handed over any more (R95, R119). -/
def Channel.freeze (x : Channel) : Channel := { x with resume := false, handover := none }

/-- Every pole state and the levels driven on the outputs, as an ESTOP close keeps them (step 6 of R67). -/
def State.snapshot (s : State) : Vector (Vector PoleState 3) 4 × BitVec 8 :=
  (s.bs.breakers.map (fun b => b.poles.map Pole.state), s.biu.driven)

/-- Steps 1 to 4 of R67. The run state itself changes at step 8, so that every record carries the run's number. -/
def State.freezeRun (s : State) (at' : Tick) : State :=
  { s with
    sq := { s.sq with
      pendingTr := none
      held := none
      heldDue := none
      impairments := closeAllIntervals s.sq.impairments at' }
    ws := { s.ws with
      ramp := s.ws.ramp.map (fun p => { p with ended := true })
      channels := s.ws.channels.map Channel.freeze }
    bs := s.bs.freeze }

/-- ABORT sent for the run in progress with its PEER_EVENT record, unless the ring is DOWN (R165). -/
def State.sendAbort (s : State) (cause : Option CloseReason) : State :=
  if s.pr.ring = .down then s
  else (s.send (.abort s.joint cause)).peerRecord (.abort s.joint s.pr.node cause)

/-- The ABORT of a joint run closed for a reason other than COMPLETED (R165, step 5 of R67). -/
def State.abortAtClose (s : State) (reason : CloseReason) : State :=
  if s.joint ≠ 0 ∧ reason ≠ .completed then s.sendAbort (some reason) else s

/-- The contents of RUN_CLOSE (step 6 of R67, R138). -/
def State.closeData (s : State) (reason : CloseReason) (at' : Tick)
    (snapshot : Vector (Vector PoleState 3) 4 × BitVec 8) : RunCloseData :=
  { reason := reason
    at' := s.stampAt at'
    active := s.sq.active
    count := s.sq.count
    outcomes := countOutcomes s.outcomes
    verdict := verdictOf s.outcomes
    dropped := s.rs.runDropped
    overflow := s.sq.overflow
    trips := s.bs.breakers.map Breaker.trips
    closes := s.bs.breakers.map Breaker.closes
    snapshot := if reason = .estop then some snapshot else none }

/-- The proposal state and the answer waiting end with the run (R166, R167). -/
def Ring.endRun (r : Ring) : Ring := { r with proposal := .idle, waiting := none }

/-- The run state after a close or an end: INHIBITED for an emergency stop (step 8 of R67, R55). -/
def afterClose (reason : CloseReason) : RunState := if reason = .estop then .inhibited else .idle

/-- Step 8 of R67, with the outputs at their levels outside RUNNING (step 2). -/
def State.leaveRun (s : State) (reason : CloseReason) : State :=
  State.raiseRunState (State.driveOutputs
    { s with
      sq := { s.sq with active := none, owner := none, lastClose := some reason, runState := afterClose reason }
      pr := s.pr.endRun })

/-- A RUNNING run closed at an instant by the steps of R67. An event that waits at MU came before the close, and is taken before it,
with the values in force that stand (R130, R135; log 72); a closing event with records of its own has taken it before those. -/
def State.closeRun (s : State) (reason : CloseReason) (at' : Tick) : State :=
  let s1 := (((s.settleEvents.freezeRun at').resolveAll reason at').abortAtClose reason)
  let s2 := s1.commit (.runClose (s1.closeData reason at' s.snapshot))
  s2.releaseReserve.leaveRun reason

/-! ### The unstarted end (R55) -/

/-- The run has proposed a START or is pledged to one (R55, R56, R165). An ARMED run that a crossing has pledged to a slot proposal
counts as pledged too: DESIGN CHOICE, log 63. -/
def Ring.startStands (r : Ring) : Bool := r.holds

/-- Enabled measurements return to INACTIVE (R55, R125). -/
def MeasUnit.deactivate (mu : MeasUnit) : MeasUnit :=
  { mu with meas := mu.meas.map (fun x => if x.live = .waitingStart then { x with live := .inactive } else x) }

/-- An ARMED run ended unstarted (R55); `silent` for an ending by a ring ABORT or by the ring leaving UP, which sends no
ABORT of its own (R165). That an ABORT of its own is sent and recorded first, while the reserve is set aside and the run's number
stands: DESIGN CHOICE, log 76. -/
def State.endUnstarted (s : State) (silent : Bool) (after : RunState) : State :=
  let s1 := if !silent && s.pr.startStands then s.sendAbort none else s
  let s2 := s1.releaseReserve
  State.raiseRunState
    { s2 with
      sq := { s2.sq with runState := after, owner := none, startPending := none }
      mu := s2.mu.deactivate
      pr := s2.pr.endRun }

/-- Any run ended for a reason at the present instant: a RUNNING run closed, an ARMED one ended unstarted. -/
def State.endRun (s : State) (reason : CloseReason) (silent : Bool) : State :=
  match s.sq.runState with
  | .running => s.closeRun reason s.tb.et
  | .armed => s.endUnstarted silent (afterClose reason)
  | .idle => s
  | .inhibited => s

/-! ### The emergency stop (R69) -/

/-- An emergency stop from its source: the stream enable cleared, any run ended, the part INHIBITED, ESTOP raised. -/
def State.emergencyStop (s : State) (src : EstopSource) : State :=
  let number := if s.running then s.sq.lastRun else 0
  let s1 := State.endRun { s with sq := { s.sq with streamEnable := false } } .estop false
  State.raise { s1 with sq := { s1.sq with runState := .inhibited } } (.estop src number)

end Sys2Proof.Machine
end

