-- ==== Sys2Proof/Machine/Entry.lean ====
section
/-! DEFINITION. Entries (R48, R49, R65), the start of a run (R59), the commit entry and the held trigger (R168, R169),
the time limit and the ramp step (R62, R90), and the answers to proposals that an entry or an arrival gives (R167). -/

namespace Sys2Proof.Machine

/-! ### Entry checks (R48) -/

/-- A channel is unavailable to a record: FAULT, UNDECLARED or forced in this run (R48). -/
def Channel.unavailable (x : Channel) : Bool := x.forced || x.decl.maximum.isNone

/-- The ramp names the channel in its mask with quantity MAGNITUDE (R48). -/
def rampsMagnitude (ramp : Option RampSpec) (c : Fin 10) : Bool :=
  match ramp with
  | some r => r.quantity == .magnitude && inSet r.mask c.val
  | none => false

/-- The two checks of one channel, CHANNEL_UNAVAILABLE and then RANGE (R48). -/
def channelCheck (x : Channel) (mag : Nat) (ramped : Bool) : Option TrapCause :=
  if x.unavailable && (mag != 0 || ramped) then some .channelUnavailable
  else match x.decl.maximum with
    | some m => if m < mag then some .range else none
    | none => none

/-- A trigger that needs a joint run: PEER, REMOTE_INPUT or a peer mode (R48). -/
def Trigger.needsRing (t : Trigger) : Bool :=
  t.mode != .alone || (match t.cond with
    | .peer => true
    | .remoteInput _ _ _ => true
    | .input _ _ => false
    | .breaker _ _ => false
    | .advance => false
    | .rampDone => false)

/-- Checks 2 and 3 of R48 on a STEADY or RAMP record: the first failure, with the channel or the trigger index. -/
def State.liveCheck (s : State) (b : LiveBody) (ramp : Option RampSpec) : Option (TrapCause × Option Nat) :=
  match (List.finRange 10).findSome? (fun c =>
    (channelCheck s.ws.channels[c] (b.setpoints[c]).mag (rampsMagnitude ramp c)).map (fun t => (t, some c.val))) with
  | some f => some f
  | none =>
    if s.joint = 0 then
      (b.triggers.zipIdx.find? (fun ti => ti.1.needsRing)).map (fun ti => (.noRing, some ti.2))
    else none

/-- The entry checks of a slot: the first failure, or none (R48). -/
def State.entryCheck (s : State) (slot : Fin 64) : Option (TrapCause × Option Nat) :=
  match s.st.slots[slot] with
  | none => some (.emptySlot, none)
  | some (.steady b) => s.liveCheck b none
  | some (.ramp b r) => s.liveCheck b (some r)
  | some .endState => none

/-- A sequence trap at boundary `b` (R49). What waits at MU came before it, so that TRAP and the records of the close are
consecutive (R145; log 72). -/
def State.trap (s : State) (slot : Fin 64) (cause : TrapCause) (detail : Option Nat) (b : Tick) : State :=
  ((s.settleEvents.commit (.trap slot cause detail b)).raise (.trap slot cause)).closeRun .trap b

/-! ### Answers to proposals (R167) -/

/-- ACCEPT: the part is pledged; a released held trigger stays held (R167, R172, log 23). -/
def State.acceptProposal (s : State) (joint : Nat) (p : Proposal) : State :=
  let s1 := { s with
    pr := { s.pr with proposal := { role := .pledged, prop := some p, toAccept := 0, sentAt := none, tc := none,
                                    late := none } }
    sq := { s.sq with heldDue := none } }
  (s1.send (.accept joint p.proposer p.number)).peerRecord (.accepted p)

/-- DECLINE; the part's role stays as it is (R167). -/
def State.declineProposal (s : State) (joint : Nat) (p : Proposal) : State :=
  (s.send (.decline joint p.proposer p.number)).peerRecord (.declined p)

/-- A PEER_WAIT proposal deferred until a state with a PEER trigger is entered (R167). -/
def State.deferProposal (s : State) (p : Proposal) : State :=
  State.peerRecord { s with pr := { s.pr with proposal := { ProposalState.idle with role := .deferred, prop := some p } } }
    (.deferred p)

/-- A PROPOSE answered by the table of R167, against the state and run that stand. -/
def State.answerProposal (s : State) (joint : Nat) (p : Proposal) : State :=
  let mine := joint != 0 && joint == s.joint
  match p.target with
  | none => if s.sq.runState = .armed ∧ mine then s.acceptProposal joint p else s.declineProposal joint p
  | some _ =>
    if mine then
      match s.sq.runState with
      | .armed => s.declineProposal joint p
      | .running =>
        if p.mode = .wait ∧ !s.hasPeerTrigger then s.deferProposal p else s.acceptProposal joint p
      | .idle => s
      | .inhibited => s
    else s

/-- At an entry, the answer waiting is given, or a deferred proposal accepted where the state has a PEER trigger (R167). -/
def State.answerAtEntry (s : State) : State :=
  match s.pr.waiting, s.pr.proposal.role, s.pr.proposal.prop with
  | some p, _, _ => State.answerProposal { s with pr := { s.pr with waiting := none } } s.joint p
  | none, .deferred, some p => if s.hasPeerTrigger then s.acceptProposal s.joint p else s
  | none, _, _ => s

/-! ### The entry (R65) -/

/-- The breaker entry actions of a record, timed from the boundary (R38). That those of several breakers are made in the order B0
to B3 is a DESIGN CHOICE, log 70. -/
def State.entryActions (s : State) (b : LiveBody) (boundary : Tick) : State :=
  s.onBreakers (fun x => (List.finRange 4).foldl (fun x k => match b.actions[k] with
    | .nothing => x
    | .openBreaker => x.takeTrip k 7 boundary boundary
    | .closeBreaker => x.takeClose k boundary boundary) x)

/-- The run record's part of an entry (R65). -/
def Sequencer.enter (sq : Sequencer) (slot : Fin 64) (boundary : Tick) : Sequencer :=
  { sq with
    active := some slot
    entryBoundary := some boundary
    count := sq.count + 1
    pendingTr := none
    held := none
    heldDue := none }

/-- The STATE_ENTRY record of an entry, next after the records of the start (R59, R145), and MU's reference instant (R65). -/
def State.recordEntry (s : State) (slot : Fin 64) (cause : EntryCause) (boundary : Tick) : State :=
  (s.commit (.stateEntry slot cause s.sq.count boundary)).muEvent (.stateEntry slot) boundary false

/-- The level triggers evaluated at an entry; what they meet moves the run one frame later (R60, R61). -/
def State.evaluateEntry (s : State) (boundary : Tick) : State :=
  s.meetTriggers s.condStands (s.boundaryAfter boundary)

/-- A STEADY or RAMP record entered at a boundary (R65). The entry that brings the count to 65,535 is made in full, but for the
answers to proposals, which an entry that closes the run leaves ungiven (R167; log 44). The order of the list of R65, the record,
MU's reference, the breaker actions and then the level triggers, which so judge the poles as the actions left them: DESIGN CHOICE,
log 64. Where the entry closes the run, what waits at MU is taken before its record, with the setpoints it brings (log 72). -/
def State.enterLive (s : State) (slot : Fin 64) (b : LiveBody) (ramp : Option RampSpec) (cause : EntryCause)
    (anchored : Bool) (boundary : Tick) : State :=
  let s1 := State.driveOutputs
    { s with sq := s.sq.enter slot boundary, ws := s.ws.enter b ramp (anchored || b.anchor) boundary }
  let s2 := s1.followSetpoints boundary
  let s3 := ((if s2.sq.count = 65535 then s2.settleEvents else s2).recordEntry slot cause boundary).entryActions b boundary
  if s3.sq.count = 65535 then (s3.evaluateEntry boundary).closeRun .limit boundary
  else s3.answerAtEntry.evaluateEntry boundary

/-- An END record entered: counted, recorded and handed to MU, and the run closes COMPLETED (R36, R65). What waits at MU is taken
before its record (log 72). -/
def State.enterEnd (s : State) (slot : Fin 64) (cause : EntryCause) (boundary : Tick) : State :=
  (State.recordEntry { s.settleEvents with sq := s.sq.enter slot boundary } slot cause boundary).closeRun .completed boundary

/-- An entry of a slot at a boundary (R65): checked, then trapped or made. -/
def State.enterSlot (s : State) (slot : Fin 64) (cause : EntryCause) (anchored : Bool) (boundary : Tick) : State :=
  match s.entryCheck slot with
  | some (c, detail) => s.trap slot c detail boundary
  | none =>
    match s.st.slots[slot] with
    | some (.steady b) => s.enterLive slot b none cause anchored boundary
    | some (.ramp b r) => s.enterLive slot b (some r) cause anchored boundary
    | some .endState => s.enterEnd slot cause boundary
    | none => s

/-! ### The start (R59, R80, R81) -/

/-- WS at a start boundary: R anchored, every channel at its starting point (R80, R81). -/
def State.anchorStart (s : State) (nominal : Nat) (boundary : Tick) : State :=
  let r0 := anchorPhase nominal (devMicros (devOf s.tb.offset boundary))
  { s with
    now := { s.now with opened := true }
    ws := { s.ws with
      ref := r0
      ramp := none
      channels := s.ws.channels.mapFinIdx (fun i x h => x.atStart r0 (s.onOpenPole ⟨i, h⟩)) } }

/-- The conditions that stand at a start open their intervals at its boundary: CHATTER, TIME_QUALITY, RING_LOSS (R26, R59, R72).
Where a condition began on the other count of the same correcting microsecond, the interval carries the boundary's own count, also
where the chatter's t_accept is one higher: DESIGN CHOICE, log 81. Several CHATTERING inputs open theirs by input number: DESIGN
CHOICE, log 59. -/
def State.startImpairments (s : State) (requireLock : Bool) (boundary : Tick) : State :=
  let s1 := (List.finRange 16).foldl (fun s i =>
    if s.biu.inputs[i].chattering then s.openImpairment .chatter (some i.val) boundary else s) s
  let s2 := if requireLock && s1.tb.disc != .locked then s1.openImpairment .timeQuality none boundary else s1
  if s2.pr.enable && s2.pr.ring != .up then s2.openImpairment .ringLoss none boundary else s2

/-- The run made RUNNING at its start boundary: RUN_OPEN, the initial impairments and the first entry (R59). -/
def State.startRun (s : State) (boundary : Tick) : State :=
  match s.sq.options with
  | none => s
  | some o =>
    let s1 := State.anchorStart
      { s with sq := { s.sq with
        runState := .running
        startPending := none
        startInstant := some (s.stampAt boundary) } } o.nominal boundary
    let s2 := State.driveOutputs { s1 with mu := { s1.mu with meas := s1.mu.meas.map (fun x => x.runStart boundary) } }
    let s3 := s2.commit (.runOpen (s2.sq.owner.getD .cp) o (s2.stampAt boundary) s2.tq)
    let s4 := (s3.startImpairments o.requireLock boundary).raiseRunState
    s4.enterSlot o.first .start true boundary

/-! ### Transitions, limits and steps (R61, R62, R90) -/

/-- The pending transition made at its boundary (R65). -/
def State.makeTransition (s : State) (boundary : Tick) : State :=
  match s.sq.pendingTr with
  | some p => if Tick.le p.boundary boundary then s.enterSlot p.target (.exit p.cause) false boundary else s
  | none => s

/-- The time limit of the active state falls on this boundary: the first at or after the instant at which its duration has
passed, which is that instant itself but for a run over the wrap of ET (R62, R1; log 38). -/
def State.limitDue (s : State) (boundary : Tick) : Option (Fin 64) :=
  match s.activeBody, s.sq.entryBoundary with
  | some b, some e =>
    match b.limit with
    | some (duration, target) => if s.boundaryAtOrAfter (Tick.plus e duration) = boundary then some target else none
    | none => none
  | _, _ => none

/-- The proposer's WITHDRAW at its time limit (R170). -/
def State.withdrawOwn (s : State) : State :=
  match s.pr.proposal.prop with
  | some p =>
    let s1 := { s with pr := { s.pr with proposal := .idle }, sq := { s.sq with held := none } }
    (s1.send (.withdraw s.joint p.number)).peerRecord (.withdrawn p)
  | none => s

/-- The time limit met at its boundary: a proposer's standing PEER_WAIT proposal is withdrawn first (R170); a held run
keeps it as an exit (R64); otherwise it makes its transition there (R62), unless an exit was met before (R61). -/
def State.meetLimit (s : State) (target : Fin 64) (boundary : Tick) : State :=
  if s.sq.pendingTr.isSome || s.sq.heldDue.isSome then s
  else if s.pr.waitStands then s.withdrawOwn.enterSlot target (.exit .timeLimit) false boundary
  else if s.pr.holds then (s.meetExit .timeLimit target .alone boundary).1
  else s.enterSlot target (.exit .timeLimit) false boundary

/-- A ramp step is not made while a transition is pending, or the run is held (R90). -/
def State.rampHeld (s : State) : Bool := s.sq.pendingTr.isSome || s.pr.holds || s.sq.held.isSome

/-- The condition is RAMP_DONE. -/
def isRampDone (c : Cond) : Bool := c == .rampDone

/-- A dwell instant at a boundary: a step, or a dwell that passes without one (R90, R91, R62). -/
def State.dwell (s : State) (r : RampSpec) (p : RampProgress) (boundary : Tick) : State :=
  if s.rampHeld then
    { s with ws := { s.ws with ramp := some { p with next := Tick.plus p.next r.dwell } } }
  else
    let s1 := State.followSetpoints { s with ws := s.ws.rampStep r p } boundary
    if s1.ws.ramp.any RampProgress.ended then s1.meetTriggers isRampDone (s1.boundaryAfter boundary) else s1

/-- The ramp whose dwell instant falls on this boundary, the first at or after it (R90, R1; log 38). A ramp that has ended has no
further dwell instants, and READ CHANNELS goes on showing the one that followed its last step: DESIGN CHOICE, log 71. -/
def State.dwellDue (s : State) (boundary : Tick) : Option (RampSpec × RampProgress) :=
  if s.running then
    match s.activeRamp, s.ws.ramp with
    | some r, some p => if !p.ended && s.boundaryAtOrAfter p.next == boundary then some (r, p) else none
    | _, _ => none
  else none

/-! ### The held trigger after a withdrawal (R168) -/

/-- A released held trigger taken at its boundary: a LOCAL trigger or the time limit makes its transition, a trigger with
peer mode proposes. -/
def State.takeHeld (s : State) (boundary : Tick) : State :=
  match s.sq.held with
  | none => { s with sq := { s.sq with heldDue := none } }
  | some h =>
    match h.cause with
    | .timeLimit =>
      match s.activeBody.bind LiveBody.limit with
      | some (_, target) => s.enterSlot target (.exit .timeLimit) false boundary
      | none => { s with sq := { s.sq with held := none, heldDue := none } }
    | .trigger i =>
      match s.triggers[i]? with
      | some t =>
        if t.mode = .alone then s.enterSlot t.target (.exit h.cause) false boundary
        else State.propose { s with sq := { s.sq with heldDue := none } } (some t.target) t.mode
      | none => { s with sq := { s.sq with held := none, heldDue := none } }

/-! ### The commit entry (R169) -/

/-- The commit entry falls on this boundary: the first at or after t_c, or, of a COMMIT that came too late, the first
after its arrival (R169). -/
def State.commitDue (s : State) (boundary : Tick) : Bool :=
  match s.pr.proposal.tc with
  | none => false
  | some tc =>
    match s.pr.proposal.late with
    | some arrived => Tick.lt arrived boundary
    | none => Tick.le (s.reachOf tc) boundary

/-- The commit entry at its boundary: COMMITTED, then the entry of the target slot or the start (R169). -/
def State.commitEntry (s : State) (boundary : Tick) : State :=
  match s.pr.proposal.prop, s.pr.proposal.tc with
  | some p, some tc =>
    let s1 := State.peerRecord
      { s with
        pr := { s.pr with proposal := .idle }
        sq := { s.sq with held := none, heldDue := none } }
      (.committed p s.pr.proposal.late.isSome tc boundary)
    match p.target, s.sq.runState with
    | some slot, .running => s1.enterSlot slot .ringCommit false boundary
    | none, .armed => s1.startRun boundary
    | _, _ => s1
  | _, _ => s

end Sys2Proof.Machine
end

