-- ==== Sys2Proof/Machine/TimeBase.lean ====
section
/-! DEFINITION. The time base (chapter 1): discipline changes, marks, relabels, the watch and holdover expiries, the
microsecond of the oscillator, and the effects of its commands. Also what a taken command answers (R181). -/

namespace Sys2Proof.Machine

/-! ### Answers (R181) -/

/-- What a command leaves and answers: the state after it, the result code and the reply's payload. -/
structure Answer where
  st : State
  code : ResultCode
  body : ReplyBody
  deriving DecidableEq, Repr

/-- A refusal with an empty payload: nothing changes. -/
def State.refuse (s : State) (c : ResultCode) : Answer := { st := s, code := c, body := .empty }

/-- OK with an empty payload. -/
def State.ok (s : State) : Answer := { st := s, code := .ok, body := .empty }

/-- OK with a payload. -/
def State.okWith (s : State) (b : ReplyBody) : Answer := { st := s, code := .ok, body := b }

/-! ### Reports of the time base (R16) -/

def State.setTb (s : State) (tb : TimeBase) : State := { s with tb := tb }

/-- A TIME_EVENT record with device time and time quality just after the event (R16). -/
def State.timeRecord (s : State) (cause : TimeCause) (before : Discipline) (e : Option Int)
    (seconds : Option (Nat × Nat)) : State :=
  s.commit (.timeEvent { cause := cause, before := before, after := s.tb.disc, tq := s.tq, e := e, dev := s.dev,
                         seconds := seconds })

/-- The TIME_STATE notice with its detail as it stands (R16). -/
def State.raiseTimeState (s : State) : State := s.raise (.timeState s.tb.disc s.tb.suspect s.tb.absent)

/-- The run in progress was armed with require-lock (R53, R72). -/
def State.requireLock (s : State) : Bool :=
  match s.sq.options with
  | some o => o.requireLock
  | none => false

/-- A change of discipline state handed to SQ (R16, R72). -/
def State.handDiscipline (s : State) (before : Discipline) : State :=
  if s.tb.disc = .locked then s.endImpairment .timeQuality none s.tb.et
  else if before = .locked ∧ s.requireLock then s.openImpairment .timeQuality none s.tb.et
  else s

/-- A change of discipline state at TB: the holdover timer, the STATE record and TIME_STATE (R9 to R12, R16). SQ is told of it
after every record that TB commits at the event (R145). -/
def State.changeDiscipline (s : State) (d : Discipline) (e : Option Int) : State :=
  if s.tb.disc = d then s
  else
    let s1 := s.setTb { s.tb with disc := d, holdover := if d = .holdover then some s.tb.et else none }
    (s1.timeRecord .state s.tb.disc e none).raiseTimeState

/-- What TB did from `before` on told to SQ: the change of discipline state, where there is one (R16, R72). -/
def State.tellDiscipline (s : State) (before : Discipline) : State :=
  if s.tb.disc = before then s else s.handDiscipline before

/-- A change of discipline state with its reports (R9 to R12, R16). TB's records stand before what SQ makes of the change: DESIGN
CHOICE, log 75. -/
def State.setDiscipline (s : State) (d : Discipline) (e : Option Int) : State :=
  (s.changeDiscipline d e).tellDiscipline s.tb.disc

/-! ### Changes of the offset (R3, R4) -/

/-- The offset changed: the frame grid realigns (R4) and a start already met waits for the grid's next boundary (R57). -/
def State.changeOffset (s : State) (offset : Nat) : State :=
  let s1 := { s with tb := { s.tb with offset := offset }, now := { s.now with realigned := true } }
  { s1 with sq := { s1.sq with startPending := s1.sq.startPending.map (fun _ => s1.nextBoundary) } }

/-- An AT_TIME condition met by a change of device time is met at the change (R57). -/
def State.checkAtTime (s : State) : State := if s.atTimeStands then s.meetStart else s

/-- The change of device time from `s` to `t` meets an AT_TIME condition (R57). -/
def State.metBy (s t : State) : Bool := t.tb.offset != s.tb.offset && t.atTimeStands

/-! ### Marks (R7 to R11) -/

/-- A mark comes too soon after the last accepted one (R7). -/
def State.guarded (s : State) : Bool :=
  match s.tb.mark with
  | some (t, _) => decide (Tick.since t s.tb.et < 900000)
  | none => false

/-- The trim adjusted to clamp(t - 2e), the correction counter restarted (R9, R10, R2). -/
def TimeBase.adjust (tb : TimeBase) (e : Int) : TimeBase :=
  { tb with trim := clampInt (tb.trim - 2 * e) (-2000) 2000, corr := 0 }

/-- A phase step (R9). -/
def State.phaseStep (s : State) (e : Int) : State :=
  let s1 := s.changeOffset (moveOffset s.tb.offset (-e))
  let s2 := s1.setTb { s1.tb with good := 0, suspect := true, stepHeld := false }
  (s2.timeRecord .step s.tb.disc (some e) none).raiseTimeState

/-- An accepted mark in ACQUIRE (R9). -/
def State.acquireMark (s : State) (e : Int) : State :=
  if 50 < e.natAbs then
    if s.running then s.setTb { s.tb with good := 0, stepHeld := true }
    else s.phaseStep e
  else
    let s1 := s.setTb { s.tb.adjust e with stepHeld := false, good := s.tb.good + 1 }
    if 4 ≤ s.tb.good + 1 then s1.changeDiscipline .locked (some e) else s1

/-- To ACQUIRE with no good mark yet (R10, R11; log 15). -/
def State.toAcquire (s : State) (e : Option Int) : State :=
  State.changeDiscipline (s.setTb { s.tb with good := 0 }) .acquire e

/-- An accepted mark dealt with by the discipline state of its instant (R9, R10, R11). -/
def State.dealMark (s : State) (e : Int) : State :=
  match s.tb.disc with
  | .free => (s.toAcquire (some e)).acquireMark e
  | .acquire => s.acquireMark e
  | .locked =>
    if e.natAbs ≤ 20 then s.setTb (s.tb.adjust e)
    else if s.running then s.changeDiscipline .holdover (some e)
    else s.toAcquire (some e)
  | .holdover => if s.running then s else (s.toAcquire (some e)).acquireMark e

/-- The relabel of seconds at a mark (R15): `present` is the seconds of the whole second, `named` what names it. -/
def State.relabel (s : State) (e : Int) (present named : Nat) : State :=
  if s.running then s
  else
    let s1 := s.setTb { s.tb with label := none }
    if named = present then s1
    else
      let s2 := s1.changeOffset (moveOffset s1.tb.offset (((named : Int) - present) * 1000000))
      s2.timeRecord .label s2.tb.disc (some e) (some (present, named))

/-- An accepted mark with its phase error (R7): it renews the watch, clears the reference-absent condition, becomes the
last accepted mark, is dealt with, and may relabel. `named` is the seconds value that names its whole second, if any. SQ is told
once every TIME_EVENT record of the mark is committed (R145): of the discipline state, and of an AT_TIME start that the step or
the relabel met (R57). -/
def State.acceptMark (s : State) (e : Int) (named : State → Option Nat) : State :=
  let present := devSeconds (moveOffset s.dev (-e))
  let s1 := s.setTb { s.tb with mark := some (s.tb.et, e), watch := some s.tb.et, absent := false }
  let s2 := s1.dealMark e
  let s3 := match named s2 with
    | some n => s2.relabel e present n
    | none => s2
  let met := s1.metBy s2 || s2.metBy s3
  let s4 := s3.tellDiscipline s.tb.disc
  if met then s4.meetStart else s4

/-- The phase error of a PPS mark (R8). -/
def ppsError (micros : Nat) : Int := if micros < 500000 then micros else (micros : Int) - 1000000

/-- A rising edge on REFPPS (R7, R8, R15). -/
def State.ppsMark (s : State) : State :=
  if s.tb.source = .pps ∧ !s.guarded then s.acceptMark (ppsError (devMicros s.dev)) (fun s => s.tb.label)
  else s

/-- A second beacon of the time source, carrying device time `dev` over `links` links, at a node of source RING (R7, R8,
R15). -/
def State.ringMark (s : State) (dev links : Nat) : State :=
  if s.tb.source = .ring ∧ !s.guarded then
    let expected := (dev + 20 * links) % devModulus
    s.acceptMark (foldMicros ((s.dev : Int) - expected)) (fun _ => some (devSeconds expected))
  else s

/-! ### Expiries (R12) -/

/-- The mark watch has run out and something is left for its expiry to do. -/
def State.watchDue (s : State) : Bool :=
  match s.tb.source, s.tb.watch with
  | .noSource, _ => false
  | _, none => false
  | _, some t =>
    decide (1100000 ≤ Tick.since t s.tb.et) &&
      (s.tb.disc == .acquire || s.tb.disc == .locked || !s.tb.absent)

/-- The mark watch expiry (R12): HOLDOVER from ACQUIRE or LOCKED, then the reference-absent condition, and then SQ told of the
change (R145). -/
def State.watchExpiry (s : State) : State :=
  let s1 := if s.tb.disc = .acquire ∨ s.tb.disc = .locked then s.changeDiscipline .holdover none else s
  let s2 :=
    if s1.tb.absent then s1
    else ((s1.setTb { s1.tb with absent := true }).timeRecord .absent s1.tb.disc none none).raiseTimeState
  s2.tellDiscipline s.tb.disc

/-- The holdover timer has reached 300,000,000 ticks (R12). -/
def State.holdoverDue (s : State) : Bool :=
  match s.tb.disc, s.tb.holdover with
  | .holdover, some t => decide (300000000 ≤ Tick.since t s.tb.et)
  | _, _ => false

/-- The holdover expiry: TIME SUSPECT and FREE (R12). -/
def State.holdoverExpiry (s : State) : State :=
  State.setDiscipline (s.setTb { s.tb with suspect := true }) .free none

/-! ### The microsecond of the oscillator (R1, R2) -/

/-- The next microsecond is a correcting one (R2). -/
def TimeBase.correcting (tb : TimeBase) : Bool :=
  tb.trim != 0 && decide (correctionSpacing tb.trim ≤ tb.corr + 1)

/-- The counts by which a correcting microsecond advances ET (R2). -/
def TimeBase.correction (tb : TimeBase) : Nat := if 0 < tb.trim then 2 else 0

/-- The bookkeeping of the next microsecond: where ET holds its count, what the grid has given at that count stays given
(R2, R4; log 5). -/
def Instant.next (n : Instant) (counts : Nat) : Instant :=
  if counts = 0 then { n with counts := 0, realigned := false, sampled := none }
  else { Instant.fresh with counts := counts }

/-- A microsecond in which ET advances by `counts` (R1, R2, log 5); a sampling instant that passes leaves its picture (R29). -/
def State.microsecond (s : State) (counts corr : Nat) : State :=
  { s with
    tb := { s.tb with et := Tick.plus s.tb.et counts, corr := corr }
    now := s.now.next counts
    biu := { s.biu with shown := s.inputsPicture } }

/-- A microsecond without a correction; the counter rests at 0 while the trim is 0 (R2). -/
def State.plainMicrosecond (s : State) : State :=
  s.microsecond 1 (if s.tb.trim = 0 then 0 else s.tb.corr + 1)

/-- The correcting microsecond (R2). -/
def State.correctingMicrosecond (s : State) : State := s.microsecond s.tb.correction 0

/-! ### Commands -/

/-- The reference source of a code (R6, R189). -/
def RefSource.ofCode : Nat → Option RefSource
  | 0 => some .noSource
  | 1 => some .pps
  | 2 => some .ring
  | _ => none

/-- SET REFERENCE NONE (R6). -/
def State.dropReference (s : State) : State :=
  State.setDiscipline
    (s.setTb { s.tb with
      source := .noSource, stepHeld := false, label := none, good := 0, watch := none, holdover := none }) .free none

/-- SET REFERENCE PPS or RING (R6). -/
def State.selectReference (s : State) (src : RefSource) : State :=
  State.setDiscipline
    (s.setTb { s.tb with
      source := src, stepHeld := false, label := none, good := 0, mark := none, watch := some s.tb.et }) .acquire none

/-- SET REFERENCE (R6). -/
def State.setReference (s : State) (source : Option Nat) : Answer :=
  match source.bind RefSource.ofCode with
  | none => s.refuse .badField
  | some src =>
    if src = s.tb.source then s.ok
    else if src = .noSource then s.dropReference.ok
    else (s.selectReference src).ok

/-- CLEAR TIME SUSPECT (R13). -/
def State.clearSuspect (s : State) : Answer :=
  if s.tb.suspect then
    let s1 := s.setTb { s.tb with suspect := false }
    ((s1.timeRecord .suspectCleared s1.tb.disc none none).raiseTimeState).ok
  else s.ok

/-- What READ TIME returns (R17). -/
def State.timePicture (s : State) : TimePicture where
  now := s.stamp
  trim := s.tb.trim
  source := s.tb.source
  disc := s.tb.disc
  good := s.tb.good
  suspect := s.tb.suspect
  absent := s.tb.absent
  stepHeld := s.tb.stepHeld
  label := s.tb.label
  mark := s.tb.mark.map (fun m => (m.2, Tick.since m.1 s.tb.et))
  holdover := s.tb.holdover.map (fun t => Tick.since t s.tb.et)

/-- SET TIME in FREE (R14). -/
def State.setDeviceTime (s : State) (dev : Nat) : State :=
  let s1 := s.changeOffset (moveOffset 0 ((dev : Int) - s.tb.et.toNat))
  (s1.timeRecord .set s1.tb.disc none none).checkAtTime

/-- SET TIME (R14). -/
def State.setTime (s : State) (args : Option (Nat × Nat)) : Answer :=
  match args with
  | none => s.refuse .badField
  | some (seconds, micros) =>
    if 1000000 ≤ micros ∨ 4294967296 ≤ seconds then s.refuse .badField
    else if s.running then s.refuse .state
    else if s.tb.disc = .free then (s.setDeviceTime (seconds * 1000000 + micros)).ok
    else if s.tb.source = .pps then (s.setTb { s.tb with label := some seconds }).ok
    else s.refuse .state

/-- SET TRIM (R5): the range is judged in any discipline state. -/
def State.setTrim (s : State) (args : Option Int) : Answer :=
  match args with
  | none => s.refuse .badField
  | some t =>
    if t < -2000 ∨ 2000 < t then s.refuse .badField
    else if s.tb.disc = .free then (s.setTb { s.tb with trim := t, corr := 0 }).ok
    else s.refuse .state

end Sys2Proof.Machine
end

