-- ==== Sys2Proof/Machine/Inputs.lean ====
section
/-! DEFINITION. The binary input unit (chapter 2): sampling, debounce, chatter and publishing, and the effects of the
commands that configure inputs and outputs. -/

namespace Sys2Proof.Machine

def State.putInput (s : State) (i : Fin 16) (x : Input) : State :=
  { s with biu := { s.biu with inputs := upd s.biu.inputs i x } }

/-! ### Sampling (R19 to R21) -/

/-- The logical level of a pin level (R19). -/
def InputConfig.level (c : InputConfig) (high : Bool) : Level := if high != c.activeLow then .active else .inactive

/-- One input takes a sample at the instant `t` (R20, R21, R33). -/
def Input.sample (x : Input) (t : Stamp) (high : Bool) : Input :=
  let l := x.cfg.level high
  if x.resample then { x with raw := l, stable := l, published := l, resample := false }
  else
    match x.cand with
    | none =>
      { x with
        raw := l
        cand := if l = x.stable then none else some { tFirst := t, lastChange := t.et, bounces := 0 } }
    | some c =>
      { x with
        raw := l
        cand := some (if l = x.raw then c else { c with lastChange := t.et, bounces := min 255 (c.bounces + 1) }) }

/-- The sampling instant that falls in this microsecond and has not been taken yet (R19, R2). ET 0, the instant of a cold start, is
one, the first of R33: DESIGN CHOICE, log 57. -/
def State.sampleNow (s : State) : Option Tick :=
  if s.now.sampled.isSome then none else gridCount s.now.counts s.tb.et 0 10

/-- All sixteen inputs sampled together at the instant `t` (R19). -/
def State.sampleInputs (s : State) (t : Tick) (levels : BitVec 16) : State :=
  { s with
    now := { s.now with sampled := some t }
    pins := { s.pins with bi := levels }
    biu := { s.biu with inputs := s.biu.inputs.mapFinIdx (fun i x _ => x.sample (s.stampAt t) (inSet levels i)) } }

/-! ### Publishing (R27, R28) -/

/-- A start condition INPUT met by a published event (R57). -/
def State.inputStarts (s : State) (i : Fin 16) (l : Level) : Bool :=
  match s.sq.runState, s.sq.options with
  | .armed, some o =>
    match o.start with
    | .input j m => j == i && m == l
    | .command => false
    | .atTime _ => false
    | .peer => false
  | _, _ => false

/-- The trigger condition INPUT(i, level) (R60). -/
def isInputCond (i : Fin 16) (l : Level) (c : Cond) : Bool := c == .input i l

/-- A published event handed to SQ: start condition and exit triggers (R27, R57, R60). -/
def State.inputToSequencer (s : State) (i : Fin 16) (l : Level) : State :=
  let s1 := if s.inputStarts i l then s.meetStart else s
  s1.meetTriggers (isInputCond i l) s1.exitBoundary

/-- An INPUT_EVENT record, for an input with SOE on (R28). -/
def State.inputRecord (s : State) (kind : InputEventKind) (i : Fin 16) (l : Level) (b : Nat) (tFirst : Tick)
    (delay : Nat) : State :=
  if s.biu.inputs[i].cfg.soe then s.commit (.inputEvent kind i l b tFirst delay) else s

/-- An event published at `t`, as BIU itself keeps it: the published level follows and its record is committed (R27, R28). -/
def State.publishInput (s : State) (kind : InputEventKind) (i : Fin 16) (l : Level) (b : Nat) (tFirst t : Tick) : State :=
  (s.putInput i { s.biu.inputs[i] with published := l }).inputRecord kind i l b tFirst (min 65535 (Tick.since tFirst t))

/-- A published event handed to SQ, BS, MU and, of a shared input, PR (R27; the order, log 14). -/
def State.handInput (s : State) (i : Fin 16) (l : Level) (tFirst : Stamp) (t : Tick) : State :=
  let s1 := (s.inputToSequencer i l).inputToBreakers i l tFirst.et t
  let s2 := s1.muEvent (.inputLocal i l) tFirst.et false
  if s2.biu.inputs[i].cfg.shared then s2.sendShared (.input i l) tFirst.dev else s2

/-! ### Acceptance and rejection (R22, R23) -/

/-- The raw level has stood for Tdb since the candidate's last change at the sample of this microsecond. -/
def State.settled (s : State) (i : Fin 16) : Option (Tick × Candidate) :=
  match s.now.sampled, s.biu.inputs[i].cand with
  | some t, some c => if s.biu.inputs[i].cfg.tdb ≤ Tick.since c.lastChange t then some (t, c) else none
  | _, _ => none

/-- The candidate to accept at this sample (R22). -/
def State.acceptDue (s : State) (i : Fin 16) : Option (Tick × Candidate) :=
  if s.biu.inputs[i].raw = s.biu.inputs[i].stable then none else s.settled i

/-- The candidate to reject at this sample (R23). -/
def State.glitchDue (s : State) (i : Fin 16) : Option (Tick × Candidate) :=
  if s.biu.inputs[i].raw = s.biu.inputs[i].stable then s.settled i else none

/-- The byte that carries a count of edges (R194, log 33). -/
def countByte (n : Nat) : Nat := if n ≤ 255 then n else Config.longCount n % 256

/-- The accepted edge taken into the input's record: Ls, the candidate and the window (R22, R24). -/
def Input.takeEdge (x : Input) (t : Tick) : Input :=
  { x with stable := x.raw, cand := none, edges := windowAt (x.edges ++ [t]) t, lastEdge := some t }

/-- The chatter check lets an accepted edge be published (R24). -/
def Input.publishes (x : Input) : Bool :=
  x.cfg.limit == 0 || (!x.chattering && decide (x.edges.length ≤ x.cfg.limit))

/-- An accepted edge and its chatter check (R22, R24). A CHATTER interval opens at t_accept (R26), also where the run started on the
other count of the same correcting microsecond: DESIGN CHOICE, log 81. -/
def State.acceptEdge (s : State) (i : Fin 16) (t : Tick) (c : Candidate) : State :=
  let x := s.biu.inputs[i].takeEdge t
  let s1 := s.putInput i x
  if x.publishes then (s1.publishInput .edge i x.stable c.bounces c.tFirst.et t).handInput i x.stable c.tFirst t
  else if x.chattering then s1
  else
    let s2 := s1.putInput i { x with chattering := true }
    (s2.inputRecord .chatterStart i x.stable (countByte x.edges.length) t 0).openImpairment .chatter (some i.val) t

/-- A glitch: the candidate closes, with a GLITCH record when SOE is on (R23). -/
def State.rejectGlitch (s : State) (i : Fin 16) (t : Tick) (c : Candidate) : State :=
  let x := s.biu.inputs[i]
  let s1 := s.putInput i { x with cand := none }
  if x.cfg.soe then s1.commit (.glitch i x.stable.opp c.bounces c.tFirst.et t) else s1

/-- The sampling instant at which a CHATTERING input clears (R25). -/
def State.clearDue (s : State) (i : Fin 16) : Option Tick :=
  let x := s.biu.inputs[i]
  match s.now.sampled, x.lastEdge with
  | some t, some e =>
    if x.chattering && (s.acceptDue i).isNone && decide (1000000 ≤ Tick.since e t) then some t else none
  | _, _ => none

/-- A CHATTERING input clears (R25): CHATTER_END and, of a clearing that publishes, RESYNC take consecutive numbers before the end of
the condition and the event are handed on (R28, R145; log 14). The b of CHATTER_END, of which R194 says nothing, is 0: DESIGN CHOICE, log 53. -/
def State.clearChatter (s : State) (i : Fin 16) (t : Tick) : State :=
  let x := s.biu.inputs[i]
  let s1 := s.putInput i { x with chattering := false, edges := [], lastEdge := none }
  let s2 := s1.inputRecord .chatterEnd i x.stable 0 t 0
  if x.stable = x.published then s2.endImpairment .chatter (some i.val) t
  else ((s2.publishInput .resync i x.stable 0 t t).endImpairment .chatter (some i.val) t).handInput i x.stable (s.stampAt t) t

/-! ### Commands -/

/-- A flag field: 0 or 1. -/
def flagOf : Nat → Option Bool
  | 0 => some false
  | 1 => some true
  | _ => none

/-- The number of a thing below `n`. -/
def finOf (n x : Nat) : Option (Fin n) := if h : x < n then some ⟨x, h⟩ else none

/-- The fields of CONFIGURE INPUT in their ranges (R20). -/
def checkInput (a : InputArgs) : Option (Fin 16 × InputConfig) := do
  let i ← finOf 16 a.input
  let activeLow ← flagOf a.polarity
  let shared ← flagOf a.shared
  let soe ← flagOf a.soe
  if a.tdb ≤ 20000 ∧ a.tdb % 10 = 0 ∧ a.limit ≤ 255 then
    some (i, { activeLow := activeLow, tdb := a.tdb, limit := a.limit, shared := shared, soe := soe })
  else none

/-- An input with a new configuration: live state discarded, re-sampled at the next sampling instant (R20). -/
def Input.reconfigure (x : Input) (c : InputConfig) : Input :=
  { x with cfg := c, cand := none, edges := [], lastEdge := none, chattering := false, resample := true }

/-- CONFIGURE INPUT (R20). -/
def State.configureInput (s : State) (args : Option InputArgs) : Answer :=
  if s.sq.runState = .idle then
    match args.bind checkInput with
    | some (i, c) => (s.putInput i (s.biu.inputs[i].reconfigure c)).ok
    | none => s.refuse .badField
  else s.refuse .state

/-- The function that a CONFIGURE OUTPUT names (R30). -/
def checkOutputFunc : OutputFuncArg → Option OutputFunc
  | .sequence => some .sequence
  | .aux k w => do
    let k ← finOf 4 k
    let b52 ← flagOf w
    some (.aux k b52)
  | .other _ => none

/-- An aux function that another output than `n` already holds (R30). -/
def Biu.takenElsewhere (b : Biu) (n : Fin 8) (f : OutputFunc) : Bool :=
  f != .sequence && (List.finRange 8).any (fun m => m != n && b.funcs[m] == f)

/-- CONFIGURE OUTPUT (R30). -/
def State.configureOutput (s : State) (args : Option (Nat × OutputFuncArg)) : Answer :=
  if s.sq.runState = .idle then
    match args with
    | none => s.refuse .badField
    | some (output, arg) =>
      match finOf 8 output, checkOutputFunc arg with
      | some n, some f =>
        if s.biu.takenElsewhere n f then s.refuse .badField
        else (State.driveOutputs { s with biu := { s.biu with funcs := upd s.biu.funcs n f } }).ok
      | _, _ => s.refuse .badField
  else s.refuse .state

/-- SET REST PATTERN (R31): at once outside RUNNING, from the close within a run. -/
def State.setRestPattern (s : State) (pattern : Option (BitVec 8)) : Answer :=
  match pattern with
  | none => s.refuse .badField
  | some p => (State.driveOutputs { s with biu := { s.biu with rest := p } }).ok

/-- Every input re-sampled as at a cold start, its configuration kept (R34). Until the first sample its three levels stay as they
were: DESIGN CHOICE, log 8. -/
def Biu.warm (b : Biu) : Biu := { b with inputs := b.inputs.map (fun x => x.reconfigure x.cfg) }

end Sys2Proof.Machine
end

