-- ==== Sys2Proof/Machine/Ring.lean ====
section
/-! DEFINITION. The peer ring interface (chapter 9): forming the ring, its members and time source, proposals, pledges and
commits, remote events, and what each arriving message does. -/

namespace Sys2Proof.Machine

def State.setPr (s : State) (pr : Ring) : State := { s with pr := pr }

/-- The RING_STATE notice with its detail as it stands (R164). -/
def State.raiseRing (s : State) : State := s.raise (.ringState s.pr.ring s.pr.memberSet s.pr.timeSource)

/-! ### The time source (R163) -/

/-- The last beacon of a member: this part's own is the last it sent (R163). -/
def Ring.lastBeacon (r : Ring) (n : Fin 4) : Option Beacon :=
  if n = r.node then r.own else r.members[n].map Member.beacon

/-- A beacon that shows reference source PPS and LOCKED (R163). -/
def Beacon.servesTime (b : Beacon) : Bool := b.source == .pps && b.tq.disc == .locked

/-- The choice of time source while UP: the lowest member that shows PPS and LOCKED, else the lowest member (R163). -/
def Ring.chooseSource (r : Ring) : Option (Fin 4) :=
  match (List.finRange 4).find? (fun n => inSet r.memberSet n.val && (r.lastBeacon n).any Beacon.servesTime) with
  | some n => some n
  | none => (List.finRange 4).find? (fun n => inSet r.memberSet n.val)

/-- The report of a change of time source from `old` (R164). -/
def State.tellSource (s : State) (old : Option (Fin 4)) : State :=
  if s.pr.timeSource = old then s else (s.peerRecord (.source old s.pr.timeSource)).raiseRing

/-- A change of time source with its report (R164). -/
def State.setSource (s : State) (n : Option (Fin 4)) : State :=
  (s.setPr { s.pr with timeSource := n }).tellSource s.pr.timeSource

/-- The time source judged afresh; in FORMING and DOWN there is none (R163). -/
def State.judgeSource (s : State) : State :=
  s.setSource (if s.pr.ring = .up then s.pr.chooseSource else none)

/-! ### Ring states (R161, R164) -/

/-- The report of a change of ring state from `old` (R164). -/
def State.tellRing (s : State) (old : RingState) : State :=
  if s.pr.ring = old then s else (s.peerRecord (.ring old s.pr.ring)).raiseRing

/-- The change to UP: the membership as it stands, RING_LOSS ended, the time source chosen (R162 to R164). -/
def State.reachUp (s : State) : State :=
  let s1 := s.endImpairment .ringLoss none s.tb.et
  let s2 :=
    if s1.pr.memberSet = s1.pr.membership then s1
    else ((s1.setPr { s1.pr with membership := s1.pr.memberSet }).peerRecord (.members s1.pr.memberSet)).raiseRing
  s2.judgeSource

/-- Leaving UP: no time source, RING_LOSS opened, and a joint run ended (R163, R164). -/
def State.leaveUp (s : State) : State :=
  let s1 := s.judgeSource
  let s2 := if s1.pr.enable then s1.openImpairment .ringLoss none s1.tb.et else s1
  if s2.joint = 0 then s2 else s2.endRun .ringLost true

/-- What waits at MU is taken before the records of a change that leaves UP and so ends a joint run (R145; log 72). -/
def State.settleBeforeLoss (s : State) : State := if s.pr.ring = .up ∧ s.joint ≠ 0 then s.settleEvents else s

/-- A change of ring state with its report and what it hands on (R161, R164). -/
def State.setRing (s : State) (r : RingState) : State :=
  if s.pr.ring = r then s
  else
    let s1 := (s.settleBeforeLoss.setPr { s.pr with ring := r }).tellRing s.pr.ring
    if r = .up then s1.reachUp else if s.pr.ring = .up then s1.leaveUp else s1

/-! ### Beacons sent (R160, R161) -/

/-- The device-time millisecond that falls in this microsecond and has not been given a beacon yet (R160). -/
def State.millisecondNow (s : State) : Option Tick :=
  if s.now.beacon then none
  else gridCount (if s.now.realigned then max 1 s.now.counts else s.now.counts) s.tb.et s.tb.offset 1000

/-- The instant at which a beacon is due, with the ring enabled and light present (R160). -/
def State.beaconDue (s : State) : Option Tick :=
  if s.pr.enable && s.pins.light && s.pr.ring != .down then s.millisecondNow else none

/-- The fate of the previous beacon counted at a send (R161). -/
def BeaconHistory.count (h : BeaconHistory) : BeaconHistory :=
  match h.last with
  | none => { h with last := some false }
  | some true => { returns := min 3 (h.returns + 1), losses := 0, last := some false }
  | some false => { returns := 0, losses := min 2 (h.losses + 1), last := some false }

/-- The ring state that the history brings (R161). -/
def BeaconHistory.brings (h : BeaconHistory) (r : RingState) : RingState :=
  match r with
  | .forming => if 3 ≤ h.returns then .up else .forming
  | .up => if 2 ≤ h.losses then .forming else .up
  | .down => .down

/-- The beacon of an instant (R160). -/
def State.beaconAt (s : State) (t : Tick) : Beacon where
  tq := s.tq
  source := s.tb.source
  dev := devOf s.tb.offset t
  runState := s.sq.runState
  joint := s.joint

/-- A beacon sent at a device-time millisecond, the fate of the last counted first (R160, R161). -/
def State.sendBeacon (s : State) (t : Tick) : State :=
  let h := s.pr.history.count
  let s1 := { s with
    now := { s.now with beacon := true }
    pr := { s.pr with history := h, round := s.pr.round + 1 } }
  let s2 := s1.setRing (h.brings s1.pr.ring)
  let b := s2.beaconAt t
  (s2.setPr { s2.pr with own := some b }).send (.beacon b)

/-! ### Members (R162) -/

/-- The rounds begun, counting one that begins now (log 17). -/
def State.rounds (s : State) : Nat := s.pr.round + (if s.beaconDue.isSome then 1 else 0)

/-- No beacon of the member has arrived for 3 rounds (R162). -/
def State.memberGone (s : State) (n : Fin 4) : Bool :=
  match s.pr.members[n] with
  | some m => decide (m.seen + 4 ≤ s.rounds)
  | none => false

/-- A member leaves the set, which takes an UP ring to FORMING (R161, R162). -/
def State.dropMember (s : State) (n : Fin 4) : State :=
  let s1 := s.setPr { s.pr with members := upd s.pr.members n none }
  if s1.pr.ring = .up then s1.setRing .forming else s1

/-- A beacon of another node kept, its round noted; a new member takes an UP ring to FORMING (R161, R162). -/
def State.keepBeacon (s : State) (n : Fin 4) (b : Beacon) : State :=
  let s1 := s.setPr { s.pr with members := upd s.pr.members n (some { beacon := b, seen := s.pr.round }) }
  if s.pr.members[n].isNone && s1.pr.ring == .up then s1.setRing .forming else s1

/-! ### Remote time (R174) -/

/-- The time quality a BEACON or EVENT of node `n` shows: LOCKED clears the node's remote time flag. -/
def State.clearRemoteTime (s : State) (n : Fin 4) (q : TimeQuality) : State :=
  if !q.poor && inSet s.pr.poor n.val then
    State.endImpairment (s.setPr { s.pr with poor := setMember s.pr.poor n.val false }) .remoteTime (some n.val) s.tb.et
  else s

/-- An EVENT of node `n` below LOCKED sets the flag and starts the condition. -/
def State.judgeRemoteTime (s : State) (n : Fin 4) (q : TimeQuality) : State :=
  if q.poor then
    State.openImpairment (s.setPr { s.pr with poor := setMember s.pr.poor n.val true }) .remoteTime (some n.val) s.tb.et
  else s.clearRemoteTime n q

/-! ### Arrivals -/

/-- The last beacon sent has returned (R161; log 35). A beacon of this node id that carries the device time last sent is taken for
it, also where another part of the same node id sent it at that device time (R158): DESIGN CHOICE, log 83. -/
def State.markReturn (s : State) (b : Beacon) : State :=
  if s.pr.own.any (fun o => o.dev == b.dev) && s.pr.history.last == some false then
    s.setPr { s.pr with history := { s.pr.history with last := some true } }
  else s

/-- This part's own beacon comes back: its return is noted, and as at each beacon that arrives the time source is judged (R159,
R161, R163). -/
def State.beaconReturned (s : State) (b : Beacon) : State := (s.markReturn b).judgeSource

/-- A second beacon: one sent at microsecond part 0 (R160). -/
def Beacon.isSecond (b : Beacon) : Bool := b.dev % 1000000 == 0

/-- Another node's beacon (R162, R163, R7): a second beacon of a node that is time source before and after the choice is
judged is a reference mark (log 19). -/
def State.beaconArrives (s : State) (n : Fin 4) (hop : Nat) (b : Beacon) : State :=
  let s1 := ((s.keepBeacon n b).clearRemoteTime n b.tq).judgeSource
  if b.isSecond && s.pr.timeSource == some n && s1.pr.timeSource == some n then s1.ringMark b.dev hop else s1

/-- A message's joint id is that of the run in progress (R165). -/
def State.mine (s : State) (joint : Nat) : Bool := joint != 0 && joint == s.joint

/-- A PROPOSE kept as the answer waiting; one of a lower node id replaces it (R167). -/
def State.keepWaiting (s : State) (p : Proposal) : State :=
  match s.pr.waiting with
  | none => s.setPr { s.pr with waiting := some p }
  | some w => if p.proposer < w.proposer then s.setPr { s.pr with waiting := some p } else s

/-- A transition is decided and not yet made: a pending one, or a released LOCAL trigger or time limit (R167, log 23). -/
def State.entryDecided (s : State) : Bool :=
  s.sq.pendingTr.isSome ||
    (s.sq.heldDue.isSome && (match s.sq.held with
      | some h => (match h.cause with
        | .timeLimit => true
        | .trigger i => (s.triggers[i]?).any (fun t => t.mode == .alone))
      | none => false))

/-- Both proposals name the same target, or both are START, with the same mode (R172). -/
def coProposed (a b : Proposal) : Bool := a.target == b.target && a.mode == b.mode

/-- A PROPOSE of the run's joint id that crosses the standing proposal `own`, this part's own or the one it is pledged to,
whatever either names (R172, log 21). -/
def State.crossed (s : State) (joint : Nat) (own p : Proposal) : State :=
  if own.proposer < p.proposer then
    if s.pr.proposal.role = .proposer then s.peerRecord (.crossed own p true (coProposed own p)) else s
  else if p.proposer < own.proposer then
    let s1 := if s.pr.proposal.role = .proposer then s.peerRecord (.crossed own p false (coProposed own p)) else s
    s1.acceptProposal joint p
  else s

/-- A node whose run is not held answers a PROPOSE, or keeps it waiting (R167, R172). -/
def State.proposalFree (s : State) (joint : Nat) (p : Proposal) : State :=
  if s.entryDecided then s.keepWaiting p else s.answerProposal joint p

/-- A PROPOSE of another node arrives (R167, R172). A deferral leaves the run free: a PROPOSE of the deferred proposal's own node,
which has one proposal at a time, takes its place and is answered as one of a lower node is: DEDUCED, log 21. -/
def State.proposeArrives (s : State) (joint : Nat) (p : Proposal) : State :=
  if s.pr.ring ≠ .up then s
  else if !s.mine joint then
    if p.target.isNone then s.declineProposal joint p else s
  else if s.pr.proposal.tc.isSome then s.keepWaiting p
  else
    match s.pr.proposal.role, s.pr.proposal.prop with
    | .proposer, some own => s.crossed joint own p
    | .pledged, some own => s.crossed joint own p
    | .deferred, some old =>
      if p.proposer ≤ old.proposer then
        State.proposalFree (s.setPr { s.pr with proposal := .idle }) joint p
      else s
    | _, _ => s.proposalFree joint p

/-- This part's standing proposal is the one named (R166). -/
def State.namesOwn (s : State) (joint : Nat) (proposer : Fin 4) (number : BitVec 8) : Bool :=
  s.mine joint && s.pr.proposal.role == .proposer && proposer == s.pr.node &&
    s.pr.proposal.prop.any (fun p => p.number == number)

/-- An ACCEPT of node `n` (R169). -/
def State.acceptArrives (s : State) (n : Fin 4) (joint : Nat) (proposer : Fin 4) (number : BitVec 8) : State :=
  if s.namesOwn joint proposer number && s.pr.proposal.tc.isNone then
    State.commitIfAccepted
      (s.setPr { s.pr with proposal := { s.pr.proposal with toAccept := setMember s.pr.proposal.toAccept n.val false } })
  else s

/-- The proposer aborts the joint run (R171). -/
def State.abortProposal (s : State) : State :=
  match s.sq.runState with
  | .running => s.closeRun .peerAbort s.tb.et
  | .armed => s.endUnstarted false .idle
  | .idle => s
  | .inhibited => s

/-- A DECLINE (R171). -/
def State.declineArrives (s : State) (joint : Nat) (proposer : Fin 4) (number : BitVec 8) : State :=
  if s.namesOwn joint proposer number then s.abortProposal else s

/-- The proposal this part holds of node `n`, pledged to it or deferring it, is the one named. -/
def State.holdsOf (s : State) (role : Role) (n : Fin 4) (number : BitVec 8) : Bool :=
  s.pr.proposal.role == role && s.pr.proposal.prop.any (fun p => p.proposer == n && p.number == number)

/-- A COMMIT of node `n`; it is late when its boundary has already passed (R169). -/
def State.commitArrives (s : State) (n : Fin 4) (joint : Nat) (number : BitVec 8) (tc : Nat) : State :=
  if s.mine joint && s.holdsOf .pledged n number && s.pr.proposal.tc.isNone then
    let passed := Tick.lt (s.boundaryAtOrAfter (s.reachOf tc)) s.nextBoundary
    s.setPr { s.pr with proposal := { s.pr.proposal with
      tc := some tc, late := if passed then some s.tb.et else none } }
  else s

/-- The answer waiting dropped at the WITHDRAW of its proposal (R170, R176; log 22). -/
def State.dropWaiting (s : State) (n : Fin 4) (number : BitVec 8) : State :=
  match s.pr.waiting with
  | some w =>
    if w.proposer = n ∧ w.number = number then (s.setPr { s.pr with waiting := none }).peerRecord (.withdrawn w) else s
  | none => s

/-- A WITHDRAW of node `n` ends a pledge, a deferral or a waiting answer, with its WITHDRAWN record (R168, R170, R176; log
22). -/
def State.withdrawArrives (s : State) (n : Fin 4) (joint : Nat) (number : BitVec 8) : State :=
  if !s.mine joint then s
  else
    match s.pr.proposal.prop with
    | none => s.dropWaiting n number
    | some p =>
      if s.holdsOf .pledged n number then
        State.peerRecord
          { s with
            pr := { s.pr with proposal := .idle }
            sq := { s.sq with heldDue := s.sq.held.map (fun _ => s.followingBoundary) } }
          (.withdrawn p)
      else if s.holdsOf .deferred n number then
        (s.setPr { s.pr with proposal := .idle }).peerRecord (.withdrawn p)
      else s.dropWaiting n number

/-- The trigger condition REMOTE_INPUT(node, i, level) (R60). -/
def isRemoteCond (n : Fin 4) (i : Fin 16) (l : Level) (c : Cond) : Bool := c == .remoteInput n i l

/-- A remote input event: the level kept, then SQ, BS and MU take it (R174, R113, R127). -/
def State.remoteInput (s : State) (n : Fin 4) (i : Fin 16) (l : Level) (dev : Nat) (q : TimeQuality) : State :=
  let s1 := s.setPr { s.pr with levels := upd s.pr.levels n (upd s.pr.levels[n] i (some l)) }
  let s2 := s1.meetTriggers (isRemoteCond n i l) s1.exitBoundary
  let s3 := s2.remoteToBreakers n i l dev
  s3.muEvent (.inputRemote n i l) (s.etOf dev) q.poor

/-- An EVENT of node `n` (R174). -/
def State.eventArrives (s : State) (n : Fin 4) (e : SharedEvent) (dev : Nat) (q : TimeQuality) : State :=
  let s1 := s.judgeRemoteTime n q
  let s2 := match e with
    | .input i l => s1.remoteInput n i l dev q
    | .breaker _ _ _ => s1
  s2.peerRecord (.remote n e dev q)

/-- An ABORT of node `n` (R165). What waits at MU is taken before its record (log 72). -/
def State.abortArrives (s : State) (n : Fin 4) (joint : Nat) (cause : Option CloseReason) : State :=
  if s.mine joint then (s.settleEvents.peerRecord (.abort joint n cause)).endRun .peerAbort true else s

/-- A message that passed the checks of R193 handled by its originator (R159): another node's is forwarded and acted on,
its own removed, a BEACON of its own being a return. -/
def State.handle (s : State) (m : Message) (act : State → State) : State :=
  if s.pr.enable && s.pins.light then
    if m.orig = s.pr.node then
      match m.body with
      | .beacon b => s.beaconReturned b
      | .propose _ _ _ _ => s
      | .accept _ _ _ => s
      | .decline _ _ _ => s
      | .commit _ _ _ => s
      | .withdraw _ _ => s
      | .event _ _ _ => s
      | .abort _ _ => s
      | .undefined _ _ => s
    else act (s.forward m)
  else s

/-! ### The timeout and the commit entry's row (R171) -/

/-- A PEER_PREEMPT or START proposal still lacks an ACCEPT 100,000 ticks after its PROPOSE (R171). -/
def State.proposalTimedOut (s : State) : Bool :=
  match s.pr.proposal.role, s.pr.proposal.prop, s.pr.proposal.sentAt with
  | .proposer, some p, some t =>
    p.mode == .preempt && s.pr.proposal.toAccept != 0 && decide (100000 ≤ Tick.since t s.tb.et) &&
      (s.sq.runState == .running || s.sq.runState == .armed)
  | _, _, _ => false

/-! ### Light and configuration (R158, R161) -/

/-- Light appears (R161). -/
def State.lightGained (s : State) : State :=
  let s1 := { s with pins := { s.pins with light := true } }
  if s1.pr.enable ∧ s1.pr.ring = .down then (s1.setPr { s1.pr with history := .zero }).setRing .forming else s1

/-- Light is lost (R161). -/
def State.lightLost (s : State) : State :=
  State.setRing { s with pins := { s.pins with light := false } } .down

/-- The live state that CONFIGURE RING clears and a RESTART brings to its cold values (R158, R177). -/
def Ring.clearLive (r : Ring) : Ring :=
  { r with
    history := .zero
    members := Ring.cold.members
    own := none
    membership := 0
    levels := Ring.cold.levels
    poor := 0
    proposal := .idle
    waiting := none }

/-- The ring state that enable and light give a cleared ring (R158, R177). -/
def ringStart (enable light : Bool) : RingState := if enable && light then .forming else .down

/-- CONFIGURE RING (R158). -/
def State.configureRing (s : State) (args : Option (Nat × Nat)) : Answer :=
  if s.sq.runState = .idle then
    match args with
    | none => s.refuse .badField
    | some (node, enable) =>
      match finOf 4 node, flagOf enable with
      | some n, some e =>
        let pr := { s.pr with node := n, enable := e }
        ((s.setPr (if e then pr.clearLive else pr)).setRing (ringStart e s.pins.light)).ok
      | _, _ => s.refuse .badField
  else s.refuse .state

/-- The first boundary still to be given at or after an instant. -/
def State.comingBoundary (s : State) (t : Tick) : Tick :=
  if Tick.le t s.nextBoundary then s.nextBoundary else s.boundaryAtOrAfter t

/-- The boundary of the commit entry that stands: the first at or after t_c, or, of a COMMIT that came late, the first after
its arrival (R58, R169). -/
def State.commitBoundary (s : State) : Option Tick :=
  s.pr.proposal.tc.map (fun tc => match s.pr.proposal.late with
    | some arrived => s.comingBoundary (Tick.plus arrived 1)
    | none => s.comingBoundary (s.reachOf tc))

/-- The standing proposal is a START (R58). -/
def ProposalState.isStart (p : ProposalState) : Bool := p.prop.any (fun q => q.target.isNone)

/-- The boundary at which the run will start, as READ RUN shows it: in a joint run the boundary of its START commit (R51, R58;
log 46). -/
def State.startPendingShown (s : State) : Option Tick :=
  match s.sq.startPending, s.sq.runState with
  | some b, _ => some b
  | none, .armed => if s.pr.proposal.isStart then s.commitBoundary else none
  | none, _ => none

/-- The own node as a member, while the ring is enabled and a beacon of its own was sent (R162, R175). That it
is shown as last seen in the present round: DESIGN CHOICE, log 73. -/
def Ring.ownMember (r : Ring) : Option Member :=
  if r.enable then r.own.map (fun b => { beacon := b, seen := r.round }) else none

/-- What READ RING returns (R175). -/
def State.ringPicture (s : State) : RingPicture where
  node := s.pr.node
  enable := s.pr.enable
  light := s.pins.light
  ring := s.pr.ring
  history := s.pr.history
  members := s.pr.members
  own := s.pr.ownMember
  memberSet := s.pr.memberSet
  timeSource := s.pr.timeSource
  levels := s.pr.levels
  poor := s.pr.poor
  proposal := s.pr.proposal
  waiting := s.pr.waiting
  nextNumber := s.pr.nextNumber
  unsent := s.pr.unsent

end Sys2Proof.Machine
end

