-- ==== Sys2Proof/Machine/Operands.lean ====
section
/-! DEFINITION. The operands of the commands: the codes of R189 and the range checks that turn the raw fields of a payload
into the values the blocks hold, or refuse them. -/

namespace Sys2Proof.Machine

/-! ### Codes (R189) -/

def Level.ofCode : Nat → Option Level
  | 0 => some .inactive
  | 1 => some .active
  | _ => none

def Level.code : Level → Nat
  | .inactive => 0
  | .active => 1

def PeerMode.ofCode : Nat → Option PeerMode
  | 0 => some .alone
  | 1 => some .wait
  | 2 => some .preempt
  | _ => none

def PeerMode.code : PeerMode → Nat
  | .alone => 0
  | .wait => 1
  | .preempt => 2

def Quantity.ofCode : Nat → Option Quantity
  | 0 => some .magnitude
  | 1 => some .angle
  | 2 => some .frequency
  | _ => none

def Quantity.code : Quantity → Nat
  | .magnitude => 0
  | .angle => 1
  | .frequency => 2

def EntryAction.ofCode : Nat → Option EntryAction
  | 0 => some .nothing
  | 1 => some .openBreaker
  | 2 => some .closeBreaker
  | _ => none

def EntryAction.code : EntryAction → Nat
  | .nothing => 0
  | .openBreaker => 1
  | .closeBreaker => 2

def BreakerCond.ofCode : Nat → Option BreakerCond
  | 0 => some .allOpen
  | 1 => some .allClosed
  | 2 => some .anyPoleOpen
  | _ => none

def BreakerCond.code : BreakerCond → Nat
  | .allOpen => 0
  | .allClosed => 1
  | .anyPoleOpen => 2

/-- The table of R117. -/
def BreakerEventKind.ofCode : Nat → Option BreakerEventKind
  | 0 => some .poleParted
  | 1 => some .poleOpen
  | 2 => some .poleClosed
  | 3 => some .breakerOpen
  | 4 => some .breakerClosed
  | 5 => some .failToOpen
  | 6 => some .failToClose
  | 7 => some .closeRefused
  | 8 => some .forcedInterruption
  | _ => none

def BreakerEventKind.code : BreakerEventKind → Nat
  | .poleParted => 0
  | .poleOpen => 1
  | .poleClosed => 2
  | .breakerOpen => 3
  | .breakerClosed => 4
  | .failToOpen => 5
  | .failToClose => 6
  | .closeRefused => 7
  | .forcedInterruption => 8

/-- The priority table of R182. -/
def NoticeKind.ofCode : Nat → Option NoticeKind
  | 0 => some .estop
  | 1 => some .trap
  | 2 => some .runState
  | 3 => some .channelState
  | 4 => some .measurement
  | 5 => some .breakerFault
  | 6 => some .timeState
  | 7 => some .ringState
  | 8 => some .spaceLow
  | 9 => some .reportReady
  | 10 => some .test
  | _ => none

def Route.ofCode : Nat → Option Route
  | 0 => some .cp
  | 1 => some .ap
  | 2 => some .both
  | 3 => some .nowhere
  | _ => none

def Route.code : Route → Nat
  | .cp => 0
  | .ap => 1
  | .both => 2
  | .nowhere => 3

/-! ### State records (R37 to R44) -/

/-- A setpoint in its ranges; its magnitude is judged by the clamp (R37, R43). -/
def checkSetpoint (a : SetpointArg) : Bool :=
  decide (-18000 ≤ a.angle) && decide (a.angle ≤ 17999) && decide (5000 ≤ a.freq) && decide (a.freq ≤ 1000000) &&
    (match a.tau with
      | some t => decide (1 ≤ t) && decide (t ≤ 5000)
      | none => true)

/-- A setpoint with its magnitude brought to the hardware maximum (R44). -/
def clampSetpoint (c : Fin 10) (a : SetpointArg) : Setpoint :=
  { mag := min a.mag (hardwareMax c), angle := a.angle, freq := a.freq, tau := a.tau }

/-- The ten setpoints: the first channel out of range, or the clamped values (R43, R44). -/
def checkSetpoints (v : Vector SetpointArg 10) : Except FieldPos (Vector Setpoint 10) :=
  match (List.finRange 10).find? (fun c => !checkSetpoint v[c]) with
  | some c => .error (.setpoint c)
  | none => .ok (v.mapFinIdx (fun i a h => clampSetpoint ⟨i, h⟩ a))

/-- The channels whose magnitude the clamp changed (R44). -/
def clampedChannels (v : Vector SetpointArg 10) : BitVec 10 :=
  (List.finRange 10).foldl (fun w c => if hardwareMax c < (v[c]).mag then setMember w c.val true else w) 0

/-- A trigger condition with its numbers in range (R40, R43). -/
def checkCond : CondArg → Option Cond
  | .input i l => do return .input (← finOf 16 i) (← Level.ofCode l)
  | .remoteInput n i l => do return .remoteInput (← finOf 4 n) (← finOf 16 i) (← Level.ofCode l)
  | .breaker k w => do return .breaker (← finOf 4 k) (← BreakerCond.ofCode w)
  | .peer => some .peer
  | .advance => some .advance
  | .rampDone => some .rampDone
  | .other _ => none

/-- A trigger of a record whose kind is RAMP or not (R40, R43). -/
def checkTrigger (isRamp : Bool) (a : TriggerArg) : Option Trigger := do
  let cond ← checkCond a.cond
  let target ← finOf 64 a.target
  let mode ← PeerMode.ofCode a.mode
  if (cond = .peer ∧ mode ≠ .alone) ∨ (cond = .rampDone ∧ !isRamp) then none
  else some { cond := cond, target := target, mode := mode }

/-- The triggers from index `i` on: the first that offends, or all of them (R43). -/
def checkTriggers (isRamp : Bool) : Nat → List TriggerArg → Except FieldPos (List Trigger)
  | _, [] => .ok []
  | i, a :: rest =>
    if 3 ≤ i then .error (.trigger i)
    else
      match checkTrigger isRamp a with
      | none => .error (.trigger i)
      | some t => (checkTriggers isRamp (i + 1) rest).map (fun l => t :: l)

/-- The time limit and its target (R39, R43). -/
def checkLimit : Option (Nat × Nat) → Except FieldPos (Option (Nat × Fin 64))
  | none => .ok none
  | some (d, t) =>
    match finOf 64 t with
    | some target =>
      if 1000 ≤ d ∧ d ≤ 600000000 ∧ d % 100 = 0 then .ok (some (d, target)) else .error .timeLimit
    | none => .error .timeLimit

/-- The step of a ramp lies in the range of its quantity (R41). -/
def deltaInRange (q : Quantity) (d : Int) : Bool :=
  match q with
  | .magnitude => decide (d.natAbs ≤ 320000)
  | .angle => decide (d.natAbs ≤ 36000)
  | .frequency => decide (d.natAbs ≤ 995000)

/-- The ramp specification (R41, R43). -/
def checkRamp (a : RampArg) : Except FieldPos RampSpec :=
  match Quantity.ofCode a.quantity with
  | none => .error .ramp
  | some q =>
    if 1 ≤ a.mask ∧ a.mask < 1024 ∧ deltaInRange q a.delta ∧ 1000 ≤ a.dwell ∧ a.dwell ≤ 10000000 ∧ a.dwell % 100 = 0 ∧
        1 ≤ a.maxSteps ∧ a.maxSteps ≤ 1000 then
      .ok { mask := BitVec.ofNat 10 a.mask, quantity := q, delta := a.delta, dwell := a.dwell, maxSteps := a.maxSteps }
    else .error .ramp

/-- A required part, or the position at which it is missing. -/
def required {α : Type} (x : Option α) (p : FieldPos) : Except FieldPos α :=
  match x with
  | some a => .ok a
  | none => .error p

/-- The parts of a STEADY or RAMP record (R36 to R40, R43). -/
def checkBody (a : RecordArg) (isRamp : Bool) : Except FieldPos LiveBody := do
  let setpoints ← checkSetpoints (← required a.setpoints .setpoints)
  let anchor ← required (a.anchor.bind flagOf) .anchor
  let pattern ← required (a.pattern.bind (finOf 256)) .pattern
  let codes ← required a.actions .action
  let actions ←
    match codes.toList.find? (fun c => (EntryAction.ofCode c).isNone) with
    | some _ => .error .action
    | none => .ok (codes.map (fun c => (EntryAction.ofCode c).getD .nothing))
  let limit ← checkLimit a.limit
  let triggers ← checkTriggers isRamp 0 a.triggers
  return { setpoints := setpoints, anchor := anchor, pattern := BitVec.ofNat 8 pattern.val, actions := actions,
           limit := limit, triggers := triggers }

/-- An END record holds its kind and nothing else (R36, R43): the first part that is present offends. -/
def checkEnd (a : RecordArg) : Except FieldPos StateRecord :=
  if a.setpoints.isSome then .error .setpoints
  else if a.anchor.isSome then .error .anchor
  else if a.pattern.isSome then .error .pattern
  else if a.actions.isSome then .error .action
  else if a.limit.isSome then .error .timeLimit
  else if !a.triggers.isEmpty then .error (.trigger 0)
  else if a.ramp.isSome then .error .ramp
  else .ok .endState

/-- A state record as WRITE STATE judges it: the position of its first offending field, or the record with its magnitudes
clamped (R43, R44). -/
def checkRecord (a : RecordArg) : Except FieldPos StateRecord :=
  match a.kind with
  | 0 => do
    let b ← checkBody a false
    if a.ramp.isSome then .error .ramp else .ok (.steady b)
  | 1 => do
    let b ← checkBody a true
    let r ← checkRamp (← required a.ramp .ramp)
    return .ramp b r
  | 2 => checkEnd a
  | _ => .error .kind

/-- The channels that the record's clamp changed; an END record has none (R44). -/
def recordClamps (a : RecordArg) : BitVec 10 :=
  match a.setpoints with
  | some v => clampedChannels v
  | none => 0

/-! ### Breakers (R102) -/

def checkSource : SourceArg → Option Source
  | .localInput i => do return .localInput (← finOf 16 i)
  | .remoteInput n i => do return .remoteInput (← finOf 4 n) (← finOf 16 i)
  | .other _ => none

/-- The pole selection ALL, A, B or C (R102). -/
def polesOfCode : Nat → Option (BitVec 3)
  | 0 => some 7
  | 1 => some 1
  | 2 => some 2
  | 3 => some 4
  | _ => none

def checkTrip (a : SourceArg × Nat) : Option TripSource := do
  return { source := ← checkSource a.1, poles := ← polesOfCode a.2 }

def checkMode : ModeArg → Option BreakerMode
  | .simulated => some .simulated
  | .feedback i => do return .feedback (← finOf 16 i)
  | .other _ => none

/-- The fail programme (R102): `some none` is no programme. -/
def checkFail : Option (Nat × Nat) → Option (Option (Nat × BitVec 3))
  | none => some none
  | some (n, m) =>
    if 1 ≤ n ∧ n ≤ 15 ∧ 1 ≤ m ∧ m ≤ 7 then some (some (n, BitVec.ofNat 3 m)) else none

/-- An aux output field: none, or one of BO0..BO7 (R102). -/
def checkOut : Option Nat → Option (Option (Fin 8))
  | none => some none
  | some n => (finOf 8 n).map some

/-- The ranges of CONFIGURE BREAKER, field by field (R102). -/
def checkBreakerFields (a : BreakerArgs) :
    Option (Fin 4 × BreakerConfig × Option (Fin 8) × Option (Fin 8)) := do
  let k ← finOf 4 a.breaker
  let trips ← a.trips.mapM checkTrip
  let closes ← a.closes.mapM checkSource
  let mode ← checkMode a.mode
  let fail ← checkFail a.fail
  let out52a ← checkOut a.out52a
  let out52b ← checkOut a.out52b
  let ca ← (a.assoc[0]).mapM (finOf 10)
  let cb ← (a.assoc[1]).mapM (finOf 10)
  let cc ← (a.assoc[2]).mapM (finOf 10)
  let shared ← flagOf a.shared
  if a.trips.length ≤ 4 ∧ a.closes.length ≤ 2 ∧ 100 ≤ a.opening ∧ a.opening ≤ 200000 ∧ 1000 ≤ a.closing ∧
      a.closing ≤ 500000 ∧ a.scatter.toList.all (fun x => decide (x ≤ 10000)) then
    some (k, { trips := trips, closes := closes, opening := a.opening, closing := a.closing, scatter := a.scatter,
               mode := mode, fail := fail, assoc := #v[ca, cb, cc], shared := shared }, out52a, out52b)
  else none

/-- The feedback input is also a local trip or close source of the breaker (R102). -/
def BreakerConfig.feedbackClash (c : BreakerConfig) : Bool :=
  match c.mode with
  | .simulated => false
  | .feedback i => (c.trips.map TripSource.source ++ c.closes).contains (.localInput i)

/-- The channels of a breaker's three poles. -/
def BreakerConfig.channels (c : BreakerConfig) : List (Fin 10) := c.assoc.toList.flatten

/-- A list that names something twice. -/
def hasRepeat (l : List (Fin 10)) : Bool :=
  match l with
  | [] => false
  | c :: rest => rest.contains c || hasRepeat rest

/-- CONFIGURE BREAKER's fields with the clashes of R102 checked against the other breakers. -/
def State.checkBreaker (s : State) (a : BreakerArgs) :
    Option (Fin 4 × BreakerConfig × Option (Fin 8) × Option (Fin 8)) :=
  match checkBreakerFields a with
  | none => none
  | some (k, c, oa, ob) =>
    let others := (List.finRange 4).flatMap (fun j => if j = k then [] else s.bs.breakers[j].cfg.channels)
    if c.feedbackClash || (oa == ob && oa.isSome) || hasRepeat c.channels || c.channels.any (fun x => others.contains x)
    then none
    else some (k, c, oa, ob)

/-! ### Measurements (R123) -/

def checkRef : RefArg → Option MuEvent
  | .stateEntry s => do return .stateEntry (← finOf 64 s)
  | .inputLocal i l => do return .inputLocal (← finOf 16 i) (← Level.ofCode l)
  | .inputRemote n i l => do return .inputRemote (← finOf 4 n) (← finOf 16 i) (← Level.ofCode l)
  | .breaker k e => do return .breaker (← finOf 4 k) (← BreakerEventKind.ofCode e)
  | .other _ => none

def checkStart : StartRefArg → Option StartRef
  | .runStart => some .runStart
  | .onEvent r n => do
    let e ← checkRef r
    if 1 ≤ n ∧ n ≤ 255 then some (.onEvent e n) else none

def checkStop : StopRefArg → Option MuEvent
  | .runStart => none
  | .onEvent r => checkRef r

/-- V_exp and its absolute tolerance in the range of the quantity (R123). -/
def valueInRange (q : Quantity) (v : Int) (tol : Nat) : Bool :=
  match q with
  | .magnitude => decide (0 ≤ v) && decide (v ≤ 320000) && decide (tol ≤ 320000)
  | .angle => decide (-18000 ≤ v) && decide (v ≤ 17999) && decide (tol ≤ 18000)
  | .frequency => decide (5000 ≤ v) && decide (v ≤ 1000000) && decide (tol ≤ 995000)

/-- The TIME fields (R123). -/
def checkTime (a : Nat × Nat) : Option (Nat × Nat) :=
  if a.1 ≤ 600000000 ∧ a.2 ≤ 600000000 then some a else none

/-- The VALUE fields (R123). -/
def checkValue (a : Nat × Nat × Int × Nat) : Option (Fin 10 × Quantity × Int × Nat) := do
  let c ← finOf 10 a.1
  let q ← Quantity.ofCode a.2.1
  if valueInRange q a.2.2.1 a.2.2.2 then some (c, q, a.2.2.1, a.2.2.2) else none

/-- A field that may be absent: in its range when it is present. -/
def optField {α β : Type} (f : α → Option β) : Option α → Option (Option β)
  | none => some none
  | some a => (f a).map some

/-- A number in a range. -/
def inRange (lo hi x : Nat) : Option Nat := if lo ≤ x ∧ x ≤ hi then some x else none

/-- The kind of a measurement from the fields it needs (R123); `none` when one is missing. -/
def measKindOf (kind : Nat) (time : Option (Nat × Nat)) (value : Option (Fin 10 × Quantity × Int × Nat))
    (rel window : Option Nat) : Option MeasKind :=
  match kind with
  | 0 => do
    let t ← time
    let r ← rel
    return .time t.1 t.2 r
  | 1 => do
    let v ← value
    let r ← rel
    return .value v.1 v.2.1 v.2.2.1 v.2.2.2 r
  | 2 => do return .noOperate (← window)
  | _ => none

/-- DEFINE MEASUREMENT's fields (R123): the measurement and its definition, none for kind NONE. -/
def checkMeasurement (a : MeasArgs) : Option (Fin 32 × Option MeasDef) := do
  let m ← finOf 32 a.index
  let start ← optField checkStart a.start
  let stop ← optField checkStop a.stop
  let time ← optField checkTime a.time
  let value ← optField checkValue a.value
  let rel ← optField (inRange 0 1000) a.rel
  let window ← optField (inRange 1000 600000000) a.window
  let notify ← finOf 512 a.notify
  if a.kind = 3 then some (m, none)
  else do
    let k ← measKindOf a.kind time value rel window
    return (m, some { kind := k, start := ← start, stop := ← stop, notify := BitVec.ofNat 9 notify.val })

/-! ### ARM (R53) -/

/-- The start condition in its range; an AT_TIME instant is later than device time + 1,000 µs (R53). -/
def checkStartCond (dev : Nat) : StartArg → Option StartCond
  | .command => some .command
  | .atTime s u =>
    if s < 4294967296 ∧ u < 1000000 ∧ dev + 1000 < s * 1000000 + u then some (.atTime (s * 1000000 + u)) else none
  | .input i l => do return .input (← finOf 16 i) (← Level.ofCode l)
  | .peer => some .peer
  | .other _ => none

/-- The initial breaker positions, CLOSED 0 or OPEN 1 (R53). -/
def checkPositions (v : Vector Nat 4) : Option (Vector Bool 4) :=
  if v.toList.all (fun x => decide (x ≤ 1)) then some (v.map (fun x => x == 1)) else none

/-- The mask names defined measurements only (R53). -/
def MeasUnit.allDefined (mu : MeasUnit) (mask : BitVec 32) : Bool :=
  (List.finRange 32).all (fun m => !inSet mask m.val || mu.meas[m].definition.isSome)

/-- Check 3 of R53. -/
def State.checkArm (s : State) (a : ArmArgs) : Option RunOptions := do
  let first ← finOf 64 a.first
  let start ← checkStartCond s.dev a.start
  let nominal ← inRange 5000 1000000 a.nominal
  let lock ← flagOf a.lock
  let joint ← inRange 0 65535 a.joint
  let positions ← checkPositions a.positions
  if s.mu.allDefined a.mask ∧ ¬(start = .peer ∧ joint = 0) then
    some { first := first, start := start, nominal := nominal, requireLock := lock, joint := joint,
           positions := positions, mask := a.mask }
  else none

end Sys2Proof.Machine
end

