-- ==== Sys2Proof/Machine/Formats.lean ====
section
/-! DEFINITION. Bytes on the wires (chapter 11): big-endian fields and the CRC (R189, R179), ring messages (R192, R193),
sample frames (R191) and report records (R194). -/

namespace Sys2Proof.Machine

/-! ### Fields (R189) -/

/-- The low `n` bytes of a number, most significant first. -/
def be : Nat → Nat → List Byte
  | 0, _ => []
  | n + 1, x => BitVec.ofNat 8 (x / 256 ^ n) :: be n x

/-- A signed number in `n` bytes, two's complement. -/
def beInt (n : Nat) (x : Int) : List Byte := be n (x % (256 ^ n : Nat)).toNat

/-- A number or none, which is all ones in the field's width. -/
def beOpt (n : Nat) (x : Option Nat) : List Byte := be n (x.getD (256 ^ n - 1))

def beEt (t : Tick) : List Byte := be 6 t.toNat

/-- Device time: seconds in 4 bytes, then microseconds in 4. -/
def beDev (dev : Nat) : List Byte := be 4 (devSeconds dev) ++ be 4 (devMicros dev)

def beBool (b : Bool) : List Byte := be 1 b.toNat

/-- Pad bytes. -/
def pad (n : Nat) : List Byte := be n 0

/-- The number that big-endian bytes spell. -/
def beValue : List Byte → Nat
  | [] => 0
  | b :: rest => b.toNat * 256 ^ rest.length + beValue rest

/-! ### The CRC (R179) -/

/-- One bit of the CRC register. -/
def crcBit (c : BitVec 16) : BitVec 16 := if c.msb then (c <<< 1) ^^^ 0x1021#16 else c <<< 1

/-- One byte, most significant bit first. -/
def crcByte (c : BitVec 16) (b : Byte) : BitVec 16 :=
  crcBit (crcBit (crcBit (crcBit (crcBit (crcBit (crcBit (crcBit (c ^^^ (b.setWidth 16 <<< 8)))))))))

/-- The CRC-16 with polynomial x^16 + x^12 + x^5 + 1, from all ones, not inverted. -/
def crc16 (l : List Byte) : BitVec 16 := l.foldl crcByte 0xFFFF#16

/-- A frame or message with its CRC, high byte first. -/
def withCrc (l : List Byte) : List Byte := l ++ be 2 (crc16 l).toNat

/-! ### Reading bytes -/

/-- A reader of bytes: a value and the bytes after it, or nothing. -/
abbrev Dec (α : Type) := StateT (List Byte) Option α

/-- One byte as a number. -/
def byte : Dec Nat := fun l => match l with
  | [] => none
  | b :: rest => some (b.toNat, rest)

/-- `n` bytes as a big-endian number. -/
def number : Nat → Dec Nat
  | 0 => pure 0
  | n + 1 => do
    let b ← byte
    let x ← number n
    return b * 256 ^ n + x

/-- `n` bytes as a signed number. -/
def signed (n : Nat) : Dec Int := do
  let x ← number n
  return if 2 * x < 256 ^ n then (x : Int) else (x : Int) - (256 ^ n : Nat)

/-- A value that must exist. -/
def given {α : Type} (x : Option α) : Dec α := fun l => x.map (fun a => (a, l))

/-- Device time in 8 bytes. -/
def devTime : Dec Nat := do
  let s ← number 4
  let u ← number 4
  if u < 1000000 then return s * 1000000 + u else given none

/-- Every byte read and none left. -/
def Dec.whole {α : Type} (d : Dec α) (l : List Byte) : Option α :=
  match d l with
  | some (a, []) => some a
  | some (_, _ :: _) => none
  | none => none

/-! ### Codes of the formats (R189) -/

def Discipline.code : Discipline → Nat
  | .free => 0
  | .acquire => 1
  | .locked => 2
  | .holdover => 3

def Discipline.ofCode : Nat → Discipline
  | 0 => .free
  | 1 => .acquire
  | 2 => .locked
  | _ => .holdover

/-- The time quality byte. -/
def TimeQuality.code (q : TimeQuality) : Nat := q.disc.code + (if q.suspect then 4 else 0)

/-- A time quality byte; its other bits are 0. -/
def TimeQuality.ofCode (n : Nat) : Option TimeQuality :=
  if n < 8 then some { disc := Discipline.ofCode (n % 4), suspect := decide (4 ≤ n) } else none

def RefSource.code : RefSource → Nat
  | .noSource => 0
  | .pps => 1
  | .ring => 2

def RunState.code : RunState → Nat
  | .idle => 0
  | .armed => 1
  | .running => 2
  | .inhibited => 3

def RunState.ofCode : Nat → Option RunState
  | 0 => some .idle
  | 1 => some .armed
  | 2 => some .running
  | 3 => some .inhibited
  | _ => none

def RingState.code : RingState → Nat
  | .down => 0
  | .forming => 1
  | .up => 2

/-- The table of R66. -/
def CloseReason.code : CloseReason → Nat
  | .completed => 0
  | .aborted => 1
  | .estop => 2
  | .trap => 3
  | .limit => 4
  | .peerAbort => 5
  | .ringLost => 6
  | .restart => 7

def CloseReason.ofCode : Nat → Option CloseReason
  | 0 => some .completed
  | 1 => some .aborted
  | 2 => some .estop
  | 3 => some .trap
  | 4 => some .limit
  | 5 => some .peerAbort
  | 6 => some .ringLost
  | 7 => some .restart
  | _ => none

def portCode : Port → Nat
  | .cp => 0
  | .ap => 1

/-- A target slot or START, 255 (R192). -/
def targetByte (t : Option (Fin 64)) : List Byte := beOpt 1 (t.map Fin.val)

/-! ### Ring messages (R192) -/

def MsgBody.type : MsgBody → Nat
  | .beacon _ => 0
  | .propose _ _ _ _ => 1
  | .accept _ _ _ => 2
  | .decline _ _ _ => 3
  | .commit _ _ _ => 4
  | .withdraw _ _ => 5
  | .event _ _ _ => 6
  | .abort _ _ => 7
  | .undefined t _ => t

/-- The body bytes of each type. -/
def bodyLength : Nat → Option Nat
  | 0 => some 13
  | 1 => some 5
  | 2 => some 4
  | 3 => some 4
  | 4 => some 11
  | 5 => some 3
  | 6 => some 13
  | 7 => some 3
  | _ => none

/-- Kind, subject and level or breaker event of an EVENT message (R192, R194). -/
def SharedEvent.bytes : SharedEvent → List Byte
  | .input i l => be 1 0 ++ be 1 i.val ++ be 1 255 ++ be 1 l.code
  | .breaker k p e => be 1 1 ++ be 1 k.val ++ beOpt 1 (p.map Fin.val) ++ be 1 e.code

/-- The cause of an ABORT message, 255 for an end while ARMED (R192). -/
def causeByte (c : Option CloseReason) : List Byte := beOpt 1 (c.map CloseReason.code)

def MsgBody.bytes : MsgBody → List Byte
  | .beacon b => be 1 b.tq.code ++ be 1 b.source.code ++ beDev b.dev ++ be 1 b.runState.code ++ be 2 b.joint
  | .propose j n t m => be 2 j ++ be 1 n.toNat ++ targetByte t ++ be 1 m.code
  | .accept j p n => be 2 j ++ be 1 p.val ++ be 1 n.toNat
  | .decline j p n => be 2 j ++ be 1 p.val ++ be 1 n.toNat
  | .commit j n tc => be 2 j ++ be 1 n.toNat ++ beDev tc
  | .withdraw j n => be 2 j ++ be 1 n.toNat
  | .event e dev q => e.bytes ++ beDev dev ++ be 1 q.code
  | .abort j c => be 2 j ++ causeByte c
  | .undefined _ l => l

/-- A message as it stands on the ring. -/
def Message.bytes (m : Message) : List Byte :=
  withCrc (be 1 m.body.type ++ be 1 m.orig.val ++ be 1 m.hop ++ m.body.bytes)

/-- A number below `n`, read from one byte. -/
def finByte (n : Nat) : Dec (Fin n) := do given (finOf n (← byte))

/-- The pole of a breaker event, 255 for none. -/
def polePart : Dec (Option (Fin 3)) := do
  let p ← byte
  if p = 255 then return none else return some (← given (finOf 3 p))

def targetPart : Dec (Option (Fin 64)) := do
  let t ← byte
  if t = 255 then return none else return some (← given (finOf 64 t))

def numberPart : Dec (BitVec 8) := do return BitVec.ofNat 8 (← byte)

/-- The mode of a PROPOSE: PEER_WAIT or PEER_PREEMPT, the latter for a START (R192). -/
def modePart (t : Option (Fin 64)) : Dec PeerMode := do
  match ← byte with
  | 1 => if t.isSome then return .wait else given none
  | 2 => return .preempt
  | _ => given none

def causePart : Dec (Option CloseReason) := do
  let c ← byte
  if c = 255 then return none else return some (← given (CloseReason.ofCode c))

def eventPart : Dec SharedEvent := do
  match ← byte with
  | 0 =>
    let i ← finByte 16
    let x ← byte
    let l ← given (Level.ofCode (← byte))
    if x = 255 then return .input i l else given none
  | 1 =>
    let k ← finByte 4
    let p ← polePart
    let e ← given (BreakerEventKind.ofCode (← byte))
    return .breaker k p e
  | _ => given none

/-- The body of a message of a type; nothing where a field holds no defined code. -/
def bodyPart (type : Nat) : Dec MsgBody := do
  match type with
  | 0 =>
    let tq ← given (TimeQuality.ofCode (← byte))
    let source ← given (RefSource.ofCode (← byte))
    let dev ← devTime
    let runState ← given (RunState.ofCode (← byte))
    let joint ← number 2
    return .beacon { tq := tq, source := source, dev := dev, runState := runState, joint := joint }
  | 1 =>
    let j ← number 2
    let n ← numberPart
    let t ← targetPart
    let m ← modePart t
    return .propose j n t m
  | 2 => return .accept (← number 2) (← finByte 4) (← numberPart)
  | 3 => return .decline (← number 2) (← finByte 4) (← numberPart)
  | 4 => return .commit (← number 2) (← numberPart) (← devTime)
  | 5 => return .withdraw (← number 2) (← numberPart)
  | 6 =>
    let e ← eventPart
    let dev ← devTime
    let q ← given (TimeQuality.ofCode (← byte))
    return .event e dev q
  | 7 => return .abort (← number 2) (← causePart)
  | _ => given none

/-- The body that the bytes of a type spell, `undefined` where a field holds a code with no meaning (log 20). -/
def bodyOf (type : Nat) (l : List Byte) : MsgBody := ((bodyPart type).whole l).getD (.undefined type l)

/-- The message that arriving bytes spell at node `node`, or nothing where R193 discards them. -/
def Message.ofBytes (node : Fin 4) (l : List Byte) : Option Message :=
  match l with
  | type :: orig :: hop :: rest =>
    match bodyLength type.toNat, finOf 4 orig.toNat with
    | some n, some o =>
      let frame := l.take (3 + n)
      let check := (rest.drop n).take 2
      if check = be 2 (crc16 frame).toNat && (o == node || (decide (1 ≤ hop.toNat) && decide (hop.toNat ≤ 3))) then
        some { orig := o, hop := hop.toNat, body := bodyOf type.toNat (rest.take n) }
      else none
    | _, _ => none
  | _ => none

/-! ### Sample frames (R191) -/

def DeliveredFrame.bytes (d : DeliveredFrame) : List Byte :=
  withCrc (be 2 d.number.toNat ++ be 2 d.frame.seconds.toNat ++ be 3 d.frame.micros ++ be 1 d.frame.runState.code ++
    beOpt 1 (d.frame.active.map Fin.val) ++ d.frame.samples.toList.flatMap (beInt 3) ++ be 1 d.frame.pattern.toNat ++
    be 1 ((if d.frame.streamEnable then 1 else 0) + (if d.held then 2 else 0)))

/-! ### Report records (R194) -/

/-- The record kinds in the order of R143. -/
def RecordBody.code : RecordBody → Nat
  | .runOpen _ _ _ _ => 0
  | .runClose _ => 1
  | .measurementResult _ _ _ => 2
  | .impairment _ _ _ => 3
  | .trap _ _ _ _ => 4
  | .stateEntry _ _ _ _ => 5
  | .inputEvent _ _ _ _ _ _ => 6
  | .glitch _ _ _ _ _ => 7
  | .breakerEvent _ => 8
  | .timeEvent _ => 9
  | .peerEvent _ => 10
  | .startUp _ _ => 11

def TrapCause.code : TrapCause → Nat
  | .emptySlot => 0
  | .channelUnavailable => 1
  | .range => 2
  | .noRing => 3

/-- The table of R72. -/
def ImpKind.code : ImpKind → Nat
  | .timeQuality => 0
  | .streamSlip => 1
  | .saturation => 2
  | .channelFault => 3
  | .chatter => 4
  | .ringLoss => 5
  | .remoteTime => 6

def Verdict.code : Verdict → Nat
  | .pass => 0
  | .fail => 1
  | .inconclusive => 2

def PoleState.code : PoleState → Nat
  | .closed => 0
  | .opening => 1
  | .arcing => 2
  | .opened => 3
  | .closing => 4

def RefuseReason.code : RefuseReason → Nat
  | .notOpen => 0
  | .tripActive => 1

def InputEventKind.code : InputEventKind → Nat
  | .edge => 0
  | .resync => 1
  | .chatterStart => 2
  | .chatterEnd => 3

def TimeCause.code : TimeCause → Nat
  | .state => 0
  | .step => 1
  | .set => 2
  | .label => 3
  | .absent => 4
  | .suspectCleared => 5

/-- OVERFLOW 0, HISTORY 1, then the impairment kinds from 2. -/
def Deciding.code : Deciding → Nat
  | .overflow => 0
  | .history => 1
  | .impairment k => k.code + 2

/-- Trigger index 0..2, time limit 3, RING_COMMIT 4, START 5. -/
def EntryCause.code : EntryCause → Nat
  | .exit (.trigger i) => i
  | .exit .timeLimit => 3
  | .ringCommit => 4
  | .start => 5

def StartCond.code : StartCond → Nat
  | .command => 0
  | .atTime _ => 1
  | .input _ _ => 2
  | .peer => 3

/-- The start input in the low four bits, bit 7 set for ACTIVE. -/
def StartCond.inputByte : StartCond → List Byte
  | .input i l => be 1 (i.val + l.code * 128)
  | .command => be 1 255
  | .atTime _ => be 1 255
  | .peer => be 1 255

/-- The AT_TIME instant as device time, or none. -/
def StartCond.timeBytes : StartCond → List Byte
  | .atTime dev => beDev dev
  | .command => be 8 (256 ^ 8 - 1)
  | .input _ _ => be 8 (256 ^ 8 - 1)
  | .peer => be 8 (256 ^ 8 - 1)

/-- Bit k set for B k OPEN. -/
def positionBits (v : Vector Bool 4) : Nat :=
  (List.finRange 4).foldl (fun w k => if v[k] then w + 2 ^ k.val else w) 0

/-- The options as RUN_OPEN carries them. -/
def RunOptions.bytes (o : RunOptions) : List Byte :=
  be 1 o.first.val ++ be 1 o.start.code ++ o.start.inputByte ++ o.start.timeBytes ++ be 4 o.nominal ++
    beBool o.requireLock ++ be 2 o.joint ++ be 1 (positionBits o.positions) ++ be 4 o.mask.toNat

def Stamp.bytes (t : Stamp) : List Byte := beEt t.et ++ beDev t.dev

/-- Twelve pole states in half-bytes, from B0 pole A to B3 pole C. -/
def snapshotPoles (v : Vector (Vector PoleState 3) 4) : Nat :=
  (v.toList.flatMap (fun p => p.toList)).foldl (fun w p => w * 16 + p.code) 0

def RunCloseData.bytes (d : RunCloseData) : List Byte :=
  be 1 d.reason.code ++ d.at'.bytes ++ beOpt 1 (d.active.map Fin.val) ++ be 2 d.count ++
    d.outcomes.toList.flatMap (be 1) ++ be 1 d.verdict.code ++ be 2 d.dropped ++ beBool d.overflow ++
    d.trips.toList.flatMap (be 2) ++ d.closes.toList.flatMap (be 2) ++
    (match d.snapshot with
      | some (poles, pattern) => be 1 1 ++ be 6 (snapshotPoles poles) ++ be 1 pattern.toNat
      | none => be 8 0) ++ pad 1

/-- The presence byte of a MEASUREMENT_RESULT. -/
def MeasResult.presence (r : MeasResult) : Nat :=
  (if r.value.isSome then 1 else 0) + (if r.start.isSome then 2 else 0) + (if r.stop.isSome then 4 else 0)

/-- An instant, 0 where its presence bit is clear. -/
def presentEt (t : Option Tick) : List Byte := beEt (t.getD 0)

/-- The four bytes of Tm or the value read. What a Tm outside the field's range is written as the spec does not state: a FREE
VALUE, log 67. -/
def valueBytes (v : Int) : List Byte :=
  if -2147483648 ≤ v ∧ v ≤ 2147483647 then beInt 4 v else be 4 (Config.longTm v)

def resultBytes (m : Fin 32) (k : MeasKind) (r : MeasResult) : List Byte :=
  be 1 m.val ++ be 1 k.code ++ be 1 r.outcome.index.val ++ beOpt 1 (r.deciding.map Deciding.code) ++
    valueBytes (r.value.getD 0) ++ be 4 r.band ++ presentEt r.start ++ presentEt r.stop ++ beEt r.determined ++
    be 1 r.tq.code ++ be 1 r.presence

/-- The flags LATE_COMMAND and FORCED. -/
def BreakerEvent.flags (e : BreakerEvent) : Nat :=
  (if e.late then 1 else 0) + (if e.kind = .forcedInterruption then 2 else 0)

def BreakerEvent.bytes (e : BreakerEvent) : List Byte :=
  be 1 e.k.val ++ beOpt 1 (e.pole.map Fin.val) ++ be 1 e.kind.code ++ be 1 e.flags ++ beEt e.at' ++ beOpt 2 e.trip ++
    beOpt 1 (e.channel.map Fin.val) ++ beOpt 1 (e.reason.map RefuseReason.code) ++
    beOpt 6 (e.feedback.map BitVec.toNat)

def TimeEventData.bytes (d : TimeEventData) : List Byte :=
  be 1 d.cause.code ++ be 1 d.before.code ++ be 1 d.after.code ++ be 1 d.tq.code ++ beInt 4 (d.e.getD 0) ++
    beDev d.dev ++ be 4 (d.seconds.getD (0, 0)).1 ++ be 4 (d.seconds.getD (0, 0)).2 ++
    be 1 ((if d.e.isSome then 1 else 0) + (if d.seconds.isSome then 2 else 0)) ++ pad 3

/-- Proposer, number, target and mode of a proposal. -/
def Proposal.bytes (p : Proposal) : List Byte :=
  be 1 p.proposer.val ++ be 1 p.number.toNat ++ targetByte p.target ++ be 1 p.mode.code

/-- The cause codes of R176. -/
def PeerInfo.code : PeerInfo → Nat
  | .ring _ _ => 0
  | .members _ => 1
  | .source _ _ => 2
  | .proposed _ => 3
  | .accepted _ => 4
  | .declined _ => 5
  | .deferred _ => 6
  | .crossed _ _ _ _ => 7
  | .committed _ _ _ _ => 8
  | .withdrawn _ => 9
  | .abort _ _ _ => 10
  | .remote _ _ _ _ => 11

/-- The cause fields of a PEER_EVENT record, without the bytes of 0 after them. -/
def PeerInfo.fields : PeerInfo → List Byte
  | .ring a b => be 1 a.code ++ be 1 b.code
  | .members m => be 1 m.toNat
  | .source a b => beOpt 1 (a.map Fin.val) ++ beOpt 1 (b.map Fin.val)
  | .proposed p => p.bytes
  | .accepted p => p.bytes
  | .declined p => p.bytes
  | .deferred p => p.bytes
  | .crossed own other stood co =>
    be 1 own.proposer.val ++ be 1 own.number.toNat ++ be 1 other.proposer.val ++ be 1 other.number.toNat ++
      be 1 ((if stood then 1 else 0) + (if co then 2 else 0))
  | .committed p late tc b => p.bytes ++ beBool late ++ beDev tc ++ beEt b
  | .withdrawn p => p.bytes
  | .abort j o c => be 2 j ++ be 1 o.val ++ causeByte c
  | .remote o e dev q => be 1 o.val ++ e.bytes ++ beDev dev ++ be 1 q.code

def PeerInfo.bytes (i : PeerInfo) : List Byte :=
  be 1 i.code ++ i.fields ++ pad (19 - i.fields.length)

def RecordBody.bytes : RecordBody → List Byte
  | .runOpen owner o start q => be 1 (portCode owner) ++ o.bytes ++ start.bytes ++ be 1 q.code ++ pad 1
  | .runClose d => d.bytes
  | .measurementResult m k r => resultBytes m k r
  | .impairment k subject start => be 1 k.code ++ beOpt 1 subject ++ start.bytes
  | .trap slot cause detail at' => be 1 slot.val ++ be 1 cause.code ++ beOpt 1 detail ++ beEt at' ++ pad 7
  | .stateEntry slot cause count at' => be 1 slot.val ++ be 1 cause.code ++ be 2 count ++ beEt at' ++ pad 2
  | .inputEvent kind i l b t delay => be 1 kind.code ++ be 1 i.val ++ be 1 l.code ++ be 1 b ++ beEt t ++ be 2 delay
  | .glitch i l b t rejected => be 1 i.val ++ be 1 l.code ++ be 1 b ++ pad 1 ++ beEt t ++ beEt rejected
  | .breakerEvent e => e.bytes
  | .timeEvent d => d.bytes
  | .peerEvent i => i.bytes
  | .startUp warm t => beBool warm ++ pad 1 ++ t.bytes

/-- A record as it stands in the store and in a READ RECORDS reply. -/
def Record.bytes (r : Record) : List Byte :=
  be 4 r.seq.toNat ++ be 1 r.body.code ++ be 1 r.length ++ be 2 r.run ++ r.body.bytes

end Sys2Proof.Machine
end

