-- ==== Sys2Proof/Machine/Payloads.lean ====
section
/-! DEFINITION. The fields of a command read from the payload of its frame (R190): each field takes the width its range
needs, an optional field a presence byte, a list a count byte, a variant its position (log 10). A payload that does not hold
exactly its command's fields reads as nothing, and the command's field check refuses it (R181). -/

namespace Sys2Proof.Machine

/-! ### The shapes of R190 -/

/-- A field that may be absent: a presence byte, 0 or 1. -/
def optional {α : Type} (d : Dec α) : Dec (Option α) := do
  match ← byte with
  | 0 => return none
  | 1 => return some (← d)
  | _ => given none

/-- `n` fields of one shape. -/
def times {α : Type} (d : Dec α) : Nat → Dec (List α)
  | 0 => pure []
  | n + 1 => do
    let a ← d
    let l ← times d n
    return a :: l

/-- A list: a count byte, then its entries in order. -/
def counted {α : Type} (d : Dec α) : Dec (List α) := do times d (← byte)

/-- A list of known length as a vector. -/
def vector {α : Type} (d : Dec α) (n : Nat) : Dec (Vector α n) := do
  let l ← times d n
  given (if h : l.length = n then some ⟨l.toArray, by simpa using h⟩ else none)

/-- One byte that may be none, all ones (R189). -/
def byteOrNone : Dec (Option Nat) := do
  let b ← byte
  return if b = 255 then none else some b

/-! ### Fields of the commands, in the order their rules name them -/

/-- SET TIME: seconds and microseconds (R14). -/
def setTimeFields : Dec (Nat × Nat) := do return (← number 4, ← number 4)

/-- CONFIGURE INPUT (R20). -/
def inputFields : Dec InputArgs := do
  let input ← byte
  let polarity ← byte
  let tdb ← number 2
  let limit ← byte
  let shared ← byte
  let soe ← byte
  return { input := input, polarity := polarity, tdb := tdb, limit := limit, shared := shared, soe := soe }

/-- The function of an output: SEQUENCE 0, aux 1 (R30). -/
def outputFunc : Dec OutputFuncArg := do
  match ← byte with
  | 0 => return .sequence
  | 1 => return .aux (← byte) (← byte)
  | n => return .other n

/-- CONFIGURE OUTPUT: the function, then the number of the output, the order in which R30 names them (R190). -/
def outputFields : Dec (Nat × OutputFuncArg) := do
  let f ← outputFunc
  return (← byte, f)

/-- A setpoint entry (R37). -/
def setpointFields : Dec SetpointArg := do
  let mag ← number 3
  let angle ← signed 2
  let freq ← number 3
  let tau ← optional (number 2)
  return { mag := mag, angle := angle, freq := freq, tau := tau }

/-- A trigger condition in the order of R40. -/
def condFields : Dec CondArg := do
  match ← byte with
  | 0 => return .input (← byte) (← byte)
  | 1 => return .remoteInput (← byte) (← byte) (← byte)
  | 2 => return .breaker (← byte) 0
  | 3 => return .breaker (← byte) 1
  | 4 => return .breaker (← byte) 2
  | 5 => return .peer
  | 6 => return .advance
  | 7 => return .rampDone
  | n => return .other n

/-- A trigger (R40). -/
def triggerFields : Dec TriggerArg := do
  let cond ← condFields
  let target ← byte
  let mode ← byte
  return { cond := cond, target := target, mode := mode }

/-- A ramp specification (R41). -/
def rampFields : Dec RampArg := do
  let mask ← number 2
  let quantity ← byte
  let delta ← signed 3
  let dwell ← number 3
  let maxSteps ← number 2
  return { mask := mask, quantity := quantity, delta := delta, dwell := dwell, maxSteps := maxSteps }

/-- A time limit and its target (R39). -/
def limitFields : Dec (Nat × Nat) := do return (← number 4, ← byte)

/-- A state record (R35 to R41): the kind, then its parts, each preceded by a presence byte. -/
def recordFields : Dec RecordArg := do
  let kind ← byte
  let setpoints ← optional (vector setpointFields 10)
  let anchor ← optional byte
  let pattern ← optional byte
  let actions ← optional (vector byte 4)
  let limit ← optional limitFields
  let triggers ← counted triggerFields
  let ramp ← optional rampFields
  return { kind := kind, setpoints := setpoints, anchor := anchor, pattern := pattern, actions := actions,
           limit := limit, triggers := triggers, ramp := ramp }

/-- DECLARE CHANNEL (R76): READY 0 with a declared maximum, FAULT 1. -/
def declareFields : Dec (Nat × DeclArg) := do
  let channel ← byte
  match ← byte with
  | 0 => return (channel, .ready (← number 3))
  | 1 => return (channel, .fault)
  | n => return (channel, .other n)

/-- SET CALIBRATION (R79). -/
def calFields : Dec CalArgs := do
  let channel ← byte
  let gain ← signed 2
  let phaseTrim ← signed 1
  let offset ← signed 2
  return { channel := channel, gain := gain, phaseTrim := phaseTrim, offset := offset }

/-- A breaker source: local 0, remote 1 (R102). -/
def sourceFields : Dec SourceArg := do
  match ← byte with
  | 0 => return .localInput (← byte)
  | 1 => return .remoteInput (← byte) (← byte)
  | n => return .other n

/-- A trip source with its pole selection (R102). -/
def tripFields : Dec (SourceArg × Nat) := do return (← sourceFields, ← byte)

/-- The mode of a breaker: SIMULATED 0, FEEDBACK 1 (R102). -/
def modeFields : Dec ModeArg := do
  match ← byte with
  | 0 => return .simulated
  | 1 => return .feedback (← byte)
  | n => return .other n

/-- A trip number and a pole mask (R102). -/
def failFields : Dec (Nat × Nat) := do return (← byte, ← byte)

/-- CONFIGURE BREAKER (R102). -/
def breakerFields : Dec BreakerArgs := do
  let breaker ← byte
  let trips ← counted tripFields
  let closes ← counted sourceFields
  let opening ← number 3
  let closing ← number 3
  let scatter ← vector (number 2) 3
  let mode ← modeFields
  let fail ← optional failFields
  let out52a ← byteOrNone
  let out52b ← byteOrNone
  let assoc ← vector (counted byte) 3
  let shared ← byte
  return { breaker := breaker, trips := trips, closes := closes, opening := opening, closing := closing,
           scatter := scatter, mode := mode, fail := fail, out52a := out52a, out52b := out52b, assoc := assoc,
           shared := shared }

/-- An INPUT reference: local 0 or remote 1, with its level (R123). -/
def inputRefFields : Dec RefArg := do
  match ← byte with
  | 0 => return .inputLocal (← byte) (← byte)
  | 1 => return .inputRemote (← byte) (← byte) (← byte)
  | n => return .other n

/-- An event reference of a position in the list of R123, with RUN_START at 0 (log 10). -/
def refFields : Nat → Dec RefArg
  | 1 => do return .stateEntry (← byte)
  | 2 => inputRefFields
  | 3 => do return .breaker (← byte) (← byte)
  | n => return .other n

/-- A start reference (R123). -/
def startRefFields : Dec StartRefArg := do
  match ← byte with
  | 0 => return .runStart
  | n => return .onEvent (← refFields n) (← byte)

/-- A stop reference (R123). -/
def stopRefFields : Dec StopRefArg := do
  match ← byte with
  | 0 => return .runStart
  | n => return .onEvent (← refFields n)

/-- The VALUE fields (R123). -/
def valueFields : Dec (Nat × Nat × Int × Nat) := do return (← byte, ← byte, ← signed 3, ← number 3)

/-- The TIME fields (R123). -/
def timeFields : Dec (Nat × Nat) := do return (← number 4, ← number 4)

/-- DEFINE MEASUREMENT (R123). -/
def measFields : Dec MeasArgs := do
  let index ← byte
  let kind ← byte
  let start ← optional startRefFields
  let stop ← optional stopRefFields
  let time ← optional timeFields
  let value ← optional valueFields
  let rel ← optional (number 2)
  let window ← optional (number 4)
  let notify ← number 2
  return { index := index, kind := kind, start := start, stop := stop, time := time, value := value, rel := rel,
           window := window, notify := notify }

/-- The start condition of ARM (R53). -/
def startFields : Dec StartArg := do
  match ← byte with
  | 0 => return .command
  | 1 => return .atTime (← number 4) (← number 4)
  | 2 => return .input (← byte) (← byte)
  | 3 => return .peer
  | n => return .other n

/-- ARM (R53). -/
def armFields : Dec ArmArgs := do
  let first ← byte
  let start ← startFields
  let nominal ← number 3
  let lock ← byte
  let joint ← number 2
  let positions ← vector byte 4
  let mask ← number 4
  return { first := first, start := start, nominal := nominal, lock := lock, joint := joint, positions := positions,
           mask := BitVec.ofNat 32 mask }

/-- A number of 32 bits: a sequence number, and the value of RAISE TEST NOTICE, whose width is a DESIGN CHOICE, log 69 (R186). -/
def word32 : Dec (BitVec 32) := do return BitVec.ofNat 32 (← number 4)

/-- A rest pattern. -/
def patternFields : Dec (BitVec 8) := do return BitVec.ofNat 8 (← byte)

/-- Two bytes: node and enable, or kind and route (R158, R185). -/
def twoBytes : Dec (Nat × Nat) := do return (← byte, ← byte)

/-- The slot of WRITE STATE, its first byte. -/
def slotOf : List Byte → Option Nat
  | [] => none
  | b :: _ => some b.toNat

end Sys2Proof.Machine
end

