-- ==== Sys2Proof/Machine/Replies.lean ====
section
/-! DEFINITION. The payloads of the replies and the frames that carry them (R190): the fields a command's rule names, in the
order named there, by the encoding of R189 (widths where the spec gives none, log 10). A field of one width to which a rule gives
the value none is all ones in that width then (R189), and one that may be absent otherwise has a presence byte before it (R190);
which of the two a field is where no rule calls it none in so many words is a DESIGN CHOICE, log 60. -/

namespace Sys2Proof.Machine

/-- A field that may be absent: its presence byte, and its bytes when present (R190). -/
def present {α : Type} (f : α → List Byte) : Option α → List Byte
  | none => be 1 0
  | some a => be 1 1 ++ f a

/-- A field of `n` bytes that may be none, which is all ones in that width (R189). -/
def orNone {α : Type} (n : Nat) (f : α → List Byte) : Option α → List Byte
  | none => List.replicate n 255
  | some a => f a

/-- A list: a count byte, then its entries (R190). -/
def listBytes {α : Type} (f : α → List Byte) (l : List α) : List Byte := be 1 l.length ++ l.flatMap f

/-! ### State records (R47) -/

/-- The position of the first offending field: its part, and the channel or trigger index where it has one (R43). -/
def FieldPos.bytes : FieldPos → List Byte
  | .payload => be 1 0 ++ be 1 255
  | .slot => be 1 1 ++ be 1 255
  | .kind => be 1 2 ++ be 1 255
  | .setpoint c => be 1 3 ++ be 1 c.val
  | .setpoints => be 1 3 ++ be 1 255
  | .anchor => be 1 4 ++ be 1 255
  | .pattern => be 1 5 ++ be 1 255
  | .action => be 1 6 ++ be 1 255
  | .timeLimit => be 1 7 ++ be 1 255
  | .trigger i => be 1 8 ++ be 1 i
  | .ramp => be 1 9 ++ be 1 255

def Setpoint.bytes (p : Setpoint) : List Byte := be 3 p.mag ++ beInt 2 p.angle ++ be 3 p.freq ++ present (be 2) p.tau

def Cond.bytes : Cond → List Byte
  | .input i l => be 1 0 ++ be 1 i.val ++ be 1 l.code
  | .remoteInput n i l => be 1 1 ++ be 1 n.val ++ be 1 i.val ++ be 1 l.code
  | .breaker k c => be 1 (c.code + 2) ++ be 1 k.val
  | .peer => be 1 5
  | .advance => be 1 6
  | .rampDone => be 1 7

def Trigger.bytes (t : Trigger) : List Byte := t.cond.bytes ++ be 1 t.target.val ++ be 1 t.mode.code

def RampSpec.bytes (r : RampSpec) : List Byte :=
  be 2 r.mask.toNat ++ be 1 r.quantity.code ++ beInt 3 r.delta ++ be 3 r.dwell ++ be 2 r.maxSteps

def LiveBody.bytes (b : LiveBody) : List Byte :=
  be 1 1 ++ b.setpoints.toList.flatMap Setpoint.bytes ++ be 1 1 ++ beBool b.anchor ++ be 1 1 ++ be 1 b.pattern.toNat ++
    be 1 1 ++ b.actions.toList.flatMap (fun a => be 1 a.code) ++
    present (fun l => be 4 l.1 ++ be 1 l.2.val) b.limit ++ listBytes Trigger.bytes b.triggers

/-- A record in the layout in which WRITE STATE carries it. -/
def StateRecord.bytes : StateRecord → List Byte
  | .steady b => be 1 0 ++ b.bytes ++ be 1 0
  | .ramp b r => be 1 1 ++ b.bytes ++ present RampSpec.bytes (some r)
  | .endState => be 1 2 ++ be 7 0

/-! ### Pictures -/

/-- READ TIME (R17). -/
def TimePicture.bytes (p : TimePicture) : List Byte :=
  p.now.bytes ++ beInt 2 p.trim ++ be 1 p.source.code ++ be 1 p.disc.code ++ be 1 p.good ++ beBool p.suspect ++
    beBool p.absent ++ beBool p.stepHeld ++ beOpt 4 p.label ++
    present (fun m => beInt 3 m.1 ++ be 6 m.2) p.mark ++ present (be 4) p.holdover

def InputConfig.bytes (c : InputConfig) : List Byte :=
  beBool c.activeLow ++ be 2 c.tdb ++ be 1 c.limit ++ beBool c.shared ++ beBool c.soe

def InputPicture.bytes (p : InputPicture) : List Byte :=
  p.cfg.bytes ++ be 1 p.raw.code ++ be 1 p.stable.code ++ be 1 p.published.code ++
    present (fun c => c.1.bytes ++ be 1 c.2) p.cand ++ beBool p.chattering ++ be 3 p.count

def OutputFunc.bytes : OutputFunc → List Byte
  | .sequence => be 1 0
  | .aux k b => be 1 1 ++ be 1 k.val ++ beBool b

/-- READ INPUTS (R29). -/
def InputsPicture.bytes (p : InputsPicture) : List Byte :=
  p.inputs.toList.flatMap InputPicture.bytes ++
    (List.finRange 8).flatMap (fun n => p.funcs[n].bytes ++ beBool (inSet p.driven n.val)) ++ be 1 p.rest.toNat

/-- The status of a channel, UNDECLARED 0, READY 1, FAULT 2, and its declared maximum, which only READY has. R189 has no table of
these codes: DESIGN CHOICE, log 10. -/
def Declaration.bytes : Declaration → List Byte
  | .undeclared => be 1 0 ++ present (be 3) none
  | .ready m => be 1 1 ++ present (be 3) (some m)
  | .fault => be 1 2 ++ present (be 3) none

/-- CONDUCTING 0, WATCHING 1 with its count, INTERRUPTED 2, the order of chapter 5. R189 has no table: DESIGN CHOICE, log 85. -/
def Interruption.bytes : Interruption → List Byte
  | .conducting => be 1 0
  | .watching n _ => be 1 1 ++ be 1 n
  | .interrupted => be 1 2

/-- A channel of READ CHANNELS (R99). The DC term, which no rule bounds, takes 4 signed bytes, modulo 2^32: DESIGN CHOICE, log 10. -/
def ChannelPicture.bytes (p : ChannelPicture) : List Byte :=
  p.decl.bytes ++ beBool p.forced ++ beInt 2 p.gain ++ beInt 1 p.phaseTrim ++ beInt 2 p.offset ++ be 3 p.mag ++
    beInt 2 p.angle ++ be 3 p.freq ++ beInt 3 p.amp ++ beInt 4 p.dc ++ beInt 3 p.outLast ++ p.intr.bytes ++
    beBool p.saturated

def RampProgress.bytes (p : RampProgress) : List Byte := be 2 p.steps ++ beEt p.next ++ beBool p.ended

/-- READ CHANNELS (R99). -/
def ChannelsPicture.bytes (p : ChannelsPicture) : List Byte :=
  p.channels.toList.flatMap ChannelPicture.bytes ++ orNone 9 RampProgress.bytes p.ramp ++ be 4 p.ref.toNat ++
    be 4 p.nominalInc.toNat ++ beBool p.slhold ++ beBool p.kept ++ present (fun n => be 2 n.toNat) p.lastFrame ++
    be 4 p.replaced.toNat

def Source.bytes : Source → List Byte
  | .localInput i => be 1 0 ++ be 1 i.val
  | .remoteInput n i => be 1 1 ++ be 1 n.val ++ be 1 i.val

/-- The pole selection of a trip source, ALL 0, A 1, B 2, C 3 (R102). -/
def poleSelCode (p : BitVec 3) : Nat :=
  if p = 1 then 1 else if p = 2 then 2 else if p = 4 then 3 else 0

def TripSource.bytes (t : TripSource) : List Byte := t.source.bytes ++ be 1 (poleSelCode t.poles)

def BreakerMode.bytes : BreakerMode → List Byte
  | .simulated => be 1 0
  | .feedback i => be 1 1 ++ be 1 i.val

/-- A pole of READ BREAKERS: the pending instant is preceded by what it is, parting 0, completion 1, deadline 2, the order of R120.
R189 has no table: DESIGN CHOICE, log 85. A remembered trip, which may have no number, has a presence byte: log 60. -/
def poleBytes (m : BreakerMode) (x : Pole) : List Byte :=
  be 1 x.state.code ++
    orNone 7 (fun t => be 1 (if m.isFeedback then 2 else if x.state = .opening then 0 else 1) ++ beEt t) x.pending ++
    beBool x.late ++ beOpt 2 x.opTrip ++ present (fun r => beOpt 2 r.number) x.remembered ++
    orNone 9 (fun f => beEt f.at' ++ be 2 f.trip ++ beBool f.late) x.failure

/-- One breaker of READ BREAKERS (R120). -/
def BreakerPicture.bytes (p : BreakerPicture) : List Byte :=
  listBytes TripSource.bytes p.cfg.trips ++ listBytes Source.bytes p.cfg.closes ++ be 3 p.cfg.opening ++
    be 3 p.cfg.closing ++ p.cfg.scatter.toList.flatMap (be 2) ++ p.cfg.mode.bytes ++
    present (fun f => be 1 f.1 ++ be 1 f.2.toNat) p.cfg.fail ++ beOpt 1 (p.out52a.map Fin.val) ++
    beOpt 1 (p.out52b.map Fin.val) ++ p.cfg.assoc.toList.flatMap (listBytes (fun c => be 1 c.val)) ++
    beBool p.cfg.shared ++ be 2 p.trips ++ be 2 p.closes ++ p.poles.toList.flatMap (poleBytes p.cfg.mode)

def MuEvent.bytes : MuEvent → List Byte
  | .stateEntry s => be 1 1 ++ be 1 s.val
  | .inputLocal i l => be 1 2 ++ be 1 0 ++ be 1 i.val ++ be 1 l.code
  | .inputRemote n i l => be 1 2 ++ be 1 1 ++ be 1 n.val ++ be 1 i.val ++ be 1 l.code
  | .breaker k e => be 1 3 ++ be 1 k.val ++ be 1 e.code

def StartRef.bytes : StartRef → List Byte
  | .runStart => be 1 0
  | .onEvent e n => e.bytes ++ be 1 n

/-- The fields of a kind in the order of R123, each absent where the kind does not use it: TIME, VALUE, relative tolerance
and window. -/
def MeasKind.bytes : MeasKind → List Byte
  | .time nominal tol rel => be 1 1 ++ be 4 nominal ++ be 4 tol ++ be 1 0 ++ be 1 1 ++ be 2 rel ++ be 1 0
  | .value c q v tol rel =>
    be 1 0 ++ be 1 1 ++ be 1 c.val ++ be 1 q.code ++ beInt 3 v ++ be 3 tol ++ be 1 1 ++ be 2 rel ++ be 1 0
  | .noOperate w => be 1 0 ++ be 1 0 ++ be 1 0 ++ be 1 1 ++ be 4 w

/-- A definition in the layout in which DEFINE MEASUREMENT carries it (R123, R190). -/
def MeasDef.bytes (d : MeasDef) : List Byte :=
  be 1 d.kind.code ++ be 1 1 ++ d.start.bytes ++ be 1 1 ++ d.stop.bytes ++ d.kind.bytes ++ be 2 d.notify.toNat

/-- INACTIVE 0, WAITING_START 1, TIMING 2, DONE 3, the order of chapter 7. R189 has no table: DESIGN CHOICE, log 85. -/
def LiveState.code : LiveState → Nat
  | .inactive => 0
  | .waitingStart => 1
  | .timing => 2
  | .done => 3

/-- The last result of measurement `m`, of the kind `k`: the fields of R136, in its order; a value or an instant that is none is all
ones (R189). -/
def MeasResult.bytes (m : Nat) (k : MeasKind) (r : MeasResult) : List Byte :=
  be 2 r.run ++ be 1 m ++ be 1 k.code ++ be 1 r.outcome.index.val ++ orNone 4 valueBytes r.value ++ be 4 r.band ++
    orNone 6 beEt r.start ++ orNone 6 beEt r.stop ++ be 1 r.tq.code ++ beOpt 1 (r.deciding.map Deciding.code)

/-- The value history of a VALUE measurement: its pairs, the newest and the truncated mark. -/
def HistoryPicture.bytes (h : HistoryPicture) : List Byte :=
  be 1 h.pairs ++ present (fun x => beEt x.1 ++ beInt 3 x.2) h.newest ++ beBool h.truncated

/-- The expiry as R139 gives it: a field of NO_OPERATE alone, which may be none there (R125). -/
def MeasPicture.expiryField (p : MeasPicture) : Option (Option Tick) :=
  match p.definition.map MeasDef.kind with
  | some (.noOperate _) => some p.expiry
  | _ => none

/-- Measurement `m` of READ MEASUREMENTS (R139). The expiry of a kind other than NO_OPERATE and the history of one other than
VALUE are absent, with a presence byte: DESIGN CHOICE, log 68. -/
def MeasPicture.bytes (m : Nat) (p : MeasPicture) : List Byte :=
  present MeasDef.bytes p.definition ++ be 1 p.live.code ++ be 1 p.occ ++ orNone 6 beEt p.start ++ orNone 6 beEt p.stop ++
    present (orNone 6 beEt) p.expiryField ++ present HistoryPicture.bytes p.history ++
    orNone 27 (fun dr => dr.2.bytes m dr.1.kind) (p.definition.bind (fun d => p.result.map (fun r => (d, r))))

/-- The cause of a pending transition or a held trigger in READ RUN, one byte: the trigger index 0 to 2, or the time limit 3, as
R194 has them for STATE_ENTRY. R51 and R73 give no code: DESIGN CHOICE, log 10. -/
def ExitCause.code : ExitCause → Nat
  | .trigger i => i
  | .timeLimit => 3

def Interval.bytes (i : Interval) : List Byte :=
  be 1 i.kind.code ++ beOpt 1 i.subject ++ beEt i.start ++ present beEt i.stop

/-- A start condition in the layout in which ARM carries it (R53, R190). -/
def StartCond.bytes : StartCond → List Byte
  | .command => be 1 0
  | .atTime dev => be 1 1 ++ beDev dev
  | .input i l => be 1 2 ++ be 1 i.val ++ be 1 l.code
  | .peer => be 1 3

/-- The options of a run in the layout in which ARM carries them (R53, R190). -/
def RunOptions.fields (o : RunOptions) : List Byte :=
  be 1 o.first.val ++ o.start.bytes ++ be 3 o.nominal ++ beBool o.requireLock ++ be 2 o.joint ++
    o.positions.toList.flatMap beBool ++ be 4 o.mask.toNat

/-- READ RUN (R73). The fields to which R51 gives the value none are all ones then (R189); the options, which have no one width, and
the end of an open interval take a presence byte: DESIGN CHOICE, log 60. -/
def RunPicture.bytes (p : RunPicture) : List Byte :=
  be 1 p.runState.code ++ be 2 p.run ++ beOpt 1 (p.owner.map portCode) ++ present RunOptions.fields p.options ++
    orNone 6 beEt p.startPending ++ orNone 14 Stamp.bytes p.startInstant ++ beOpt 1 (p.active.map Fin.val) ++
    orNone 6 beEt p.entryBoundary ++ be 2 p.count ++
    orNone 8 (fun t => be 1 t.target.val ++ be 1 t.cause.code ++ beEt t.boundary) p.pendingTr ++
    orNone 7 (fun h => be 1 h.cause.code ++ beEt h.at') p.held ++ beBool p.streamEnable ++
    beOpt 1 (p.lastClose.map CloseReason.code) ++ listBytes Interval.bytes p.impairments ++ beBool p.overflow

/-- NONE 0, PROPOSER 1, DEFERRED 2, PLEDGED 3, the order of chapter 9. R189 has no table: DESIGN CHOICE, log 85. -/
def Role.code : Role → Nat
  | .idle => 0
  | .proposer => 1
  | .deferred => 2
  | .pledged => 3

def Beacon.bytes (b : Beacon) : List Byte :=
  be 1 b.tq.code ++ be 1 b.source.code ++ be 1 b.runState.code ++ be 2 b.joint

/-- A remote level, or 255 for unreported. -/
def levelByte (l : Option Level) : List Byte := beOpt 1 (l.map Level.code)

def ProposalState.bytes (p : ProposalState) : List Byte :=
  be 1 p.role.code ++ present Proposal.bytes p.prop ++ be 1 p.toAccept.toNat ++ present beEt p.sentAt ++
    orNone 8 beDev p.tc

/-- A node's place in the list of members: the own node's holds what the part sent last. -/
def RingPicture.member (p : RingPicture) (n : Fin 4) : Option Member := if n = p.node then p.own else p.members[n]

/-- READ RING (R175). The member set in a byte before the four nodes in turn, and the 4 bytes of the round last seen, which no
rule bounds, modulo their width: DESIGN CHOICE, log 10. -/
def RingPicture.bytes (p : RingPicture) : List Byte :=
  be 1 p.node.val ++ beBool p.enable ++ beBool p.light ++ be 1 p.ring.code ++ be 1 p.history.returns ++
    be 1 p.history.losses ++ beBool (p.history.last == some true) ++ be 1 p.memberSet.toNat ++
    (List.finRange 4).flatMap (fun n => present (fun m => m.beacon.bytes ++ be 4 m.seen) (p.member n)) ++
    beOpt 1 (p.timeSource.map Fin.val) ++ p.levels.toList.flatMap (fun v => v.toList.flatMap levelByte) ++
    be 1 p.poor.toNat ++ p.proposal.bytes ++ orNone 4 Proposal.bytes p.waiting ++ be 1 p.nextNumber.toNat ++ be 4 p.unsent

/-- The detail word of a notice (R182). The source of ESTOP, pin 0, CP 1, AP 2, and the cause of SPACE_LOW, FALL 0, DROP 1, have no
table in R189: DESIGN CHOICE, log 85. The kind of failure of BREAKER_FAULT is the code of its event in the table of R117,
FAIL_TO_OPEN 5, FAIL_TO_CLOSE 6: DESIGN CHOICE, log 84. -/
def Detail.bytes : Detail → List Byte
  | .estop src run => be 1 (match src with
      | .pin => 0
      | .port .cp => 1
      | .port .ap => 2) ++ be 2 run
  | .trap slot cause => be 1 slot.val ++ be 1 cause.code
  | .runState st run last => be 1 st.code ++ be 2 run ++ beOpt 1 (last.map CloseReason.code)
  | .channelState c d forced => be 1 c.val ++ d.bytes ++ beBool forced
  | .measurement m o => be 1 m.val ++ be 1 o.index.val
  | .breakerFault k p kind trip => be 1 k.val ++ be 1 p.val ++ be 1 kind.code ++ beOpt 2 trip
  | .timeState d suspect absent => be 1 d.code ++ beBool suspect ++ beBool absent
  | .ringState r m src => be 1 r.code ++ be 1 m.toNat ++ beOpt 1 (src.map Fin.val)
  | .spaceLow drop a d => beBool drop ++ be 3 a ++ be 2 d
  | .reportReady n => be 4 n.toNat
  | .test v => be 4 v.toNat

def NoticeEntry.bytes (e : NoticeEntry) : List Byte := be 1 e.detail.kind.index.val ++ e.detail.bytes ++ be 1 e.count

/-- READ RECORDS, its records last (R152, R190). The oldest and newest number of an empty store are none, all ones (R189). -/
def RecordsReply.bytes (r : RecordsReply) : List Byte :=
  be 1 r.records.length ++ present (be 1) r.misfit ++ present (be 4) r.gap ++ be 4 r.cursor.toNat ++
    beBool r.subscribed ++ beOpt 4 (r.oldest.map BitVec.toNat) ++ beOpt 4 (r.newest.map BitVec.toNat) ++
    be 3 r.available ++ be 2 r.reserve ++ be 2 r.runDropped ++ be 4 r.totalDropped.toNat ++
    r.records.flatMap Record.bytes

/-- MET 0, PROPOSED 1, HELD 2, LATE 3, the order of R63. R189 has no table: DESIGN CHOICE, log 85. -/
def AdvanceResult.code : AdvanceResult → Nat
  | .met => 0
  | .proposed => 1
  | .held => 2
  | .late => 3

def ReplyBody.bytes : ReplyBody → List Byte
  | .empty => []
  | .fieldPos p => p.bytes
  | .clamped c => be 2 c.toNat
  | .time p => p.bytes
  | .inputs p => p.bytes
  | .slot r a => present StateRecord.bytes r ++ beBool a
  | .channels p => p.bytes
  | .breakers p => p.toList.flatMap BreakerPicture.bytes
  | .measurements p => p.toList.zipIdx.flatMap (fun x => x.1.bytes x.2)
  | .armed n standing => be 2 n ++ present beBool standing
  | .advance r => be 1 r.code
  | .run p => p.bytes
  | .cursorGap gap c => present (be 4) gap ++ be 4 c.toNat
  | .cursor c => be 4 c.toNat
  | .position c o n => be 4 c.toNat ++ beOpt 4 (o.map BitVec.toNat) ++ beOpt 4 (n.map BitVec.toNat)
  | .records r => r.bytes
  | .ring p => p.bytes
  | .notices l => listBytes NoticeEntry.bytes l
  | .route r => be 1 r.code
  | .restarted n q => be 2 n ++ beOpt 4 (q.map BitVec.toNat)

/-! ### Reply frames (R190) -/

/-- The result codes of R181. -/
def ResultCode.code : ResultCode → Nat
  | .ok => 0
  | .clamped => 1
  | .badFrame => 2
  | .badCommand => 3
  | .badField => 4
  | .state => 5
  | .active => 6
  | .notOwner => 7
  | .portRole => 8
  | .inhibited => 9
  | .noSpace => 10
  | .time => 11
  | .ring => 12

/-- The payload length a reply is sent with: that of its fields, up to the 240 bytes a payload can hold; beyond, the spec
states none (log 9). -/
def payloadLength (n : Nat) : Nat := if n ≤ 240 then n else min 240 (Config.longReply n)

/-- The payload of a reply as it is sent: the fields' bytes up to the payload's length, filled with 0 (log 9). -/
def ReplyBody.payload (b : ReplyBody) : List Byte :=
  (b.bytes ++ List.replicate 240 0).take (payloadLength b.bytes.length)

/-- The bytes of an outgoing frame (R190). -/
def Outgoing.bytes : Outgoing → List Byte
  | .emptyReply => withCrc (be 1 0 ++ be 1 255 ++ be 1 0 ++ be 1 0 ++ be 1 0)
  | .reply r overrun =>
    withCrc ([r.tag] ++ be 1 r.code.code ++ be 1 (if overrun.isSome then 1 else 0) ++ be 1 (overrun.getD 0) ++
      be 1 (payloadLength r.body.bytes.length) ++ r.body.payload)

/-- The length of an outgoing frame: 7 bytes and the payload (R190). -/
def Outgoing.length : Outgoing → Nat
  | .emptyReply => 7
  | .reply r _ => payloadLength r.body.bytes.length + 7

end Sys2Proof.Machine
end

