-- ==== Sys2Proof/Machine/Commands.lean ====
section
/-! DEFINITION. What each command of the state table, the synthesizer, the breakers, the measurements and the run does and
answers (R42 to R47, R76 to R79, R99, R102, R103, R120, R123, R139, R52 to R73). An operand of `none` is a payload that does
not hold the command's fields, which the command's field check refuses (R181). -/

namespace Sys2Proof.Machine

/-! ### The state table (R42 to R47) -/

/-- The port may write the table in the present run state (R46). -/
def State.mayWrite (s : State) (p : Port) : Bool :=
  match s.sq.runState with
  | .idle => true
  | .inhibited => true
  | .armed => s.sq.owner == some p
  | .running => s.sq.owner == some p

/-- The slot is the active slot of a RUNNING run (R42). -/
def State.isActive (s : State) (slot : Nat) : Bool := s.running && (s.sq.active.map Fin.val) == some slot

def State.putSlot (s : State) (slot : Fin 64) (r : Option StateRecord) : State :=
  { s with st := { slots := upd s.st.slots slot r } }

/-- BAD_FIELD with the position of the first offending field (R43). -/
def State.badPosition (s : State) (p : FieldPos) : Answer := { st := s, code := .badField, body := .fieldPos p }

/-- OK, or CLAMPED with the channels whose magnitude was clamped (R42, R44). -/
def State.wrote (s : State) (clamps : BitVec 10) : Answer :=
  if clamps = 0 then s.ok else { st := s, code := .clamped, body := .clamped clamps }

/-- WRITE STATE (R42). The slot number is read apart from the record, since check 2 comes before the fields'. A payload that does
not hold a record is refused at the position `payload`, whatever the fields it holds: DESIGN CHOICE, log 62. -/
def State.writeState (s : State) (p : Port) (slot : Option Nat) (r : Option RecordArg) : Answer :=
  if !s.mayWrite p then s.refuse .notOwner
  else
    match slot with
    | none => s.badPosition .payload
    | some n =>
      if s.isActive n then s.refuse .active
      else
        match r with
        | none => s.badPosition .payload
        | some a =>
          match finOf 64 n, checkRecord a with
          | none, _ => s.badPosition .slot
          | some _, .error e => s.badPosition e
          | some k, .ok rec => (s.putSlot k (some rec)).wrote (recordClamps a)

/-- CLEAR STATE (R45). `suits`: the payload holds the slot alone; like the slot's range, it is judged after check 2. -/
def State.clearState (s : State) (p : Port) (slot : Option Nat) (suits : Bool) : Answer :=
  if !s.mayWrite p then s.refuse .notOwner
  else
    match slot with
    | none => s.refuse .badField
    | some n =>
      if s.isActive n then s.refuse .active
      else if !suits then s.refuse .badField
      else
        match finOf 64 n with
        | none => s.refuse .badField
        | some k => (s.putSlot k none).ok

/-- READ STATE (R47). -/
def State.readState (s : State) (slot : Option Nat) : Answer :=
  match slot.bind (finOf 64) with
  | none => s.refuse .badField
  | some k => s.okWith (.slot s.st.slots[k] (s.isActive k.val))

/-! ### The synthesizer (R76 to R79, R99) -/

/-- DECLARE CHANNEL's fields in range (R76). -/
def checkDeclare (a : Nat × DeclArg) : Option (Fin 10 × Declaration) := do
  let c ← finOf 10 a.1
  match a.2 with
  | .ready m => if m ≤ hardwareMax c then some (c, .ready m) else none
  | .fault => some (c, .fault)
  | .other _ => none

/-- The FAULT declaration of a RUNNING run forces the channel and opens CHANNEL_FAULT (R77). -/
def State.forceChannel (s : State) (c : Fin 10) : State :=
  (s.putChannel c { s.ws.channels[c] with forced := true }).openImpairment .channelFault (some c.val) s.tb.et

/-- A declaration taken (R76, R77). -/
def State.declare (s : State) (c : Fin 10) (d : Declaration) : State :=
  let old := s.ws.channels[c].decl
  let s1 := s.putChannel c { s.ws.channels[c] with decl := d }
  let s2 := if d = .fault ∧ s1.running then s1.forceChannel c else s1
  if d = old then s2 else s2.raise (.channelState c d s2.ws.channels[c].forced)

/-- DECLARE CHANNEL (R76). -/
def State.declareChannel (s : State) (p : Port) (a : Option (Nat × DeclArg)) : Answer :=
  if p = .cp then s.refuse .portRole
  else
    match a.bind checkDeclare with
    | none => s.refuse .badField
    | some (c, d) => (s.declare c d).ok

/-- SET CALIBRATION's fields in range (R79). -/
def checkCalibration (a : CalArgs) : Option (Fin 10 × CalArgs) := do
  let c ← finOf 10 a.channel
  if a.gain.natAbs ≤ 20000 ∧ a.phaseTrim.natAbs ≤ 50 ∧ a.offset.natAbs ≤ 1000 then some (c, a) else none

/-- SET CALIBRATION (R79). -/
def State.setCalibration (s : State) (p : Port) (a : Option CalArgs) : Answer :=
  if p = .cp then s.refuse .portRole
  else if s.running then s.refuse .state
  else
    match a.bind checkCalibration with
    | none => s.refuse .badField
    | some (c, a) =>
      (s.putChannel c { s.ws.channels[c] with gain := a.gain, phaseTrim := a.phaseTrim, offset := a.offset }).ok

/-! ### The breakers (R102, R103, R120) -/

/-- The output assignment with breaker `k`'s aux functions released (R103). -/
def releaseAux (funcs : Vector OutputFunc 8) (k : Fin 4) : Vector OutputFunc 8 :=
  funcs.map (fun f => match f with
    | .aux j _ => if j = k then .sequence else f
    | .sequence => f)

/-- An output named in a breaker's configuration takes its function (R103). -/
def assignAux (funcs : Vector OutputFunc 8) (n : Option (Fin 8)) (f : OutputFunc) : Vector OutputFunc 8 :=
  match n with
  | some n => upd funcs n f
  | none => funcs

/-- A breaker configuration taken, with its effect on the output assignment (R103). -/
def State.takeBreakerConfig (s : State) (k : Fin 4) (c : BreakerConfig) (out52a out52b : Option (Fin 8)) : State :=
  let funcs := assignAux (assignAux (releaseAux s.biu.funcs k) out52a (.aux k false)) out52b (.aux k true)
  let s1 := s.putBreaker k { s.bs.breakers[k] with cfg := c }
  State.driveOutputs { s1 with biu := { s1.biu with funcs := funcs } }

/-- CONFIGURE BREAKER (R102, R103). -/
def State.configureBreaker (s : State) (a : Option BreakerArgs) : Answer :=
  if s.sq.runState = .idle then
    match a.bind s.checkBreaker with
    | none => s.refuse .badField
    | some (k, c, oa, ob) => (s.takeBreakerConfig k c oa ob).ok
  else s.refuse .state

/-- The output that holds an aux function, as the assignment stands (R120). -/
def Biu.outputOf (b : Biu) (f : OutputFunc) : Option (Fin 8) := (List.finRange 8).find? (fun n => b.funcs[n] == f)

/-- What READ BREAKERS returns (R120). -/
def State.breakersPicture (s : State) : Vector BreakerPicture 4 :=
  s.bs.breakers.mapFinIdx (fun i b h =>
    { cfg := b.cfg
      out52a := s.biu.outputOf (.aux ⟨i, h⟩ false)
      out52b := s.biu.outputOf (.aux ⟨i, h⟩ true)
      trips := b.trips
      closes := b.closes
      poles := b.poles })

/-! ### The measurements (R123, R139) -/

/-- DEFINE MEASUREMENT (R123): the live state becomes INACTIVE and the last result is cleared. -/
def State.defineMeasurement (s : State) (a : Option MeasArgs) : Answer :=
  if s.sq.runState = .idle then
    match a.bind checkMeasurement with
    | none => s.refuse .badField
    | some (m, d) =>
      (s.putMeas m { s.mu.meas[m] with definition := d, live := .inactive, result := none }).ok
  else s.refuse .state

/-- One measurement as READ MEASUREMENTS gives it (R139). -/
def Measurement.picture (x : Measurement) : MeasPicture where
  definition := x.definition
  live := x.live
  occ := x.occ
  start := x.start
  stop := x.stop
  expiry := if x.definition.any (fun d => d.kind.code == 2) then x.expiry else none
  history := if x.definition.any (fun d => d.kind.code == 1) then
      some { pairs := x.history.length, newest := x.history.getLast?, truncated := x.truncated }
    else none
  result := x.result

/-- What READ MEASUREMENTS returns (R139). -/
def State.measurementsPicture (s : State) : Vector MeasPicture 32 := s.mu.meas.map Measurement.picture

/-- The window of a NO_OPERATE measurement has expired (R132). -/
def State.windowDue (s : State) (m : Fin 32) : Option Tick :=
  let x := s.mu.meas[m]
  match x.live, x.expiry with
  | .timing, some t =>
    if s.running && x.definition.isSome && x.start.isSome && Tick.le t s.tb.et then some t else none
  | _, _ => none

/-- The window expiry: PASS with no stop instant, judged over the window (R132, R133). -/
def State.windowExpiry (s : State) (m : Fin 32) (expiry : Tick) : State :=
  match s.mu.meas[m].definition, s.mu.meas[m].start with
  | some d, some start => s.judge m d .pass none none false start expiry
  | _, _ => s

/-! ### The run (R53 to R73) -/

/-- The last run number incremented, from 65,535 to 1 (R54). -/
def nextRunNumber (n : Nat) : Nat := if 65535 ≤ n then 1 else n + 1

/-- A measurement at ARM (R125). -/
def Measurement.atArm (x : Measurement) (enabled : Bool) : Measurement :=
  { x with
    live := if enabled then .waitingStart else .inactive
    occ := 0
    start := none
    stop := none
    expiry := none
    history := []
    truncated := false
    startPoor := false
    result := none }

/-- The number of measurements in a mask. -/
def maskCount (mask : BitVec 32) : Nat := ((List.finRange 32).filter (fun m => inSet mask m.val)).length

/-- The run record at ARM (R54). -/
def Sequencer.atArm (sq : Sequencer) (p : Port) (o : RunOptions) : Sequencer :=
  { sq with
    runState := .armed
    lastRun := nextRunNumber sq.lastRun
    owner := some p
    options := some o
    startPending := none
    active := none
    count := 0
    pendingTr := none
    held := none
    heldDue := none
    impairments := []
    overflow := false }

/-- A run created (R54): every block takes its ARM values, and RUN_STATE is raised. -/
def State.createRun (s : State) (p : Port) (o : RunOptions) : State :=
  let s1 := State.settleSpace { s with
    sq := s.sq.atArm p o
    rs := s.rs.setAside (reserveFor (maskCount o.mask)) }
  State.raiseRunState { s1 with
    ws := { s1.ws with
      nominalInc := increment o.nominal
      channels := s1.ws.channels.map (fun x => { x with forced := false }) }
    bs := { breakers := s1.bs.breakers.mapFinIdx (fun i b h => b.atArm (o.positions[i])) }
    mu := { meas := s1.mu.meas.mapFinIdx (fun i x _ => x.atArm (inSet o.mask i)), waiting := [] }
    pr := { s1.pr with levels := Ring.cold.levels } }

/-- For an INPUT start condition, whether the published level already equals the level named (R54). -/
def State.standing (s : State) (o : RunOptions) : Option Bool :=
  match o.start with
  | .input i l => some (s.biu.inputs[i].published == l)
  | .command => none
  | .atTime _ => none
  | .peer => none

/-- ARM (R53, R54). -/
def State.armRun (s : State) (p : Port) (a : Option ArmArgs) : Answer :=
  if s.sq.runState = .inhibited then s.refuse .inhibited
  else if s.sq.runState ≠ .idle then s.refuse .state
  else
    match a.bind s.checkArm with
    | none => s.refuse .badField
    | some o =>
      if o.requireLock && s.tb.disc != .locked then s.refuse .time
      else if o.joint != 0 && s.pr.ring != .up then s.refuse .ring
      else if s.rs.available < reserveFor (maskCount o.mask) then s.refuse .noSpace
      else
        let s1 := s.createRun p o
        s1.okWith (.armed s1.sq.lastRun (s.standing o))

/-- DISARM (R55; the order of the checks, log 11). `suits`: the payload is empty, as the command's fields are. -/
def State.disarmRun (s : State) (p : Port) (suits : Bool) : Answer :=
  if s.sq.runState ≠ .armed then s.refuse .state
  else if s.sq.owner ≠ some p then s.refuse .notOwner
  else if s.pr.startStands then s.refuse .state
  else if !suits then s.refuse .badField
  else (s.endUnstarted true .idle).ok

/-- The run waits for START (R56). -/
def State.waitsForStart (s : State) : Bool :=
  (match s.sq.options with
    | some o => o.start == .command
    | none => false) && s.sq.startPending.isNone && !s.pr.startStands

/-- START (R56). -/
def State.startCommand (s : State) (p : Port) (suits : Bool) : Answer :=
  if s.sq.runState ≠ .armed then s.refuse .state
  else if s.sq.owner ≠ some p then s.refuse .notOwner
  else if !s.waitsForStart then s.refuse .state
  else if !suits then s.refuse .badField
  else s.meetStart.ok

/-- The lowest-index ADVANCE trigger of the active state (R63). -/
def State.advanceTrigger (s : State) : Option (Trigger × Nat) :=
  s.triggers.zipIdx.find? (fun ti => ti.1.cond == .advance)

/-- ADVANCE (R63). -/
def State.advanceRun (s : State) (p : Port) (suits : Bool) : Answer :=
  if s.sq.runState ≠ .running then s.refuse .state
  else if s.sq.owner ≠ some p then s.refuse .notOwner
  else
    match s.advanceTrigger with
    | none => s.refuse .state
    | some (t, i) =>
      if !suits then s.refuse .badField
      else
        let r := s.meetExit (.trigger i) t.target t.mode s.exitBoundary
        r.1.okWith (.advance r.2)

/-- ABORT (R68). -/
def State.abortRun (s : State) (suits : Bool) : Answer :=
  if s.sq.runState = .idle ∨ s.sq.runState = .inhibited then s.refuse .state
  else if !suits then s.refuse .badField
  else (s.endRun .aborted false).ok

/-- EMERGENCY STOP (R69). -/
def State.stopCommand (s : State) (p : Port) (suits : Bool) : Answer :=
  if !suits then s.refuse .badField else (s.emergencyStop (.port p)).ok

/-- The level of ESTOP_N as a step finds it (10.6). Where a CLEAR INHIBIT or a RESTART carries it low while the pin stands high,
only the level falls: the emergency stop of a falling edge (R69) is ESTOP_N_FALL's. DESIGN CHOICE, log 80. -/
def State.withEstopN (s : State) (high : Bool) : State := { s with pins := { s.pins with estopN := high } }

/-- CLEAR INHIBIT (R70). -/
def State.clearInhibit (s : State) (suits : Bool) : Answer :=
  if s.sq.runState ≠ .inhibited then s.refuse .state
  else if !s.pins.estopN then s.refuse .inhibited
  else if !suits then s.refuse .badField
  else (State.raiseRunState { s with sq := { s.sq with runState := .idle, streamEnable := true } }).ok

/-- What READ RUN returns (R73). -/
def State.runPicture (s : State) : RunPicture where
  runState := s.sq.runState
  run := s.runNumber
  owner := s.sq.owner
  options := s.sq.options
  startPending := s.startPendingShown
  startInstant := s.sq.startInstant
  active := s.sq.active
  entryBoundary := s.sq.entryBoundary
  count := s.sq.count
  pendingTr := s.sq.pendingTr
  held := s.sq.held
  streamEnable := s.sq.streamEnable
  lastClose := s.sq.lastClose
  impairments := s.sq.impairments
  overflow := s.sq.overflow

/-- A command with no fields that changes nothing answers its picture (R17, R29, R73, R99, R120, R139, R175). -/
def State.readPicture (s : State) (suits : Bool) (b : ReplyBody) : Answer :=
  if suits then s.okWith b else s.refuse .badField

end Sys2Proof.Machine
end

