-- ==== Sys2Proof/Machine/StoreCommands.lean ====
section
/-! DEFINITION. What the commands of the report store and of the port interface do and answer (R152 to R155, R184 to R186),
the warm restart (R188) and the cold start (R187). -/

namespace Sys2Proof.Machine

def State.setRs (s : State) (rs : Store) : State := { s with rs := rs }

/-! ### Readers (R146, R151) -/

/-- The cursor names a number that the store holds, or the next sequence number (R146, R153). -/
def Store.inReach (rs : Store) (c : SeqNo) : Bool := decide ((c - rs.oldest).toNat ≤ rs.records.length)

/-- The cursor moved off a discarded number, with the count of numbers skipped (R152, R154). -/
def Store.closeGap (rs : Store) (c : SeqNo) : SeqNo × Option Nat :=
  if rs.inReach c then (c, none) else (rs.oldest, some (rs.oldest - c).toNat)

/-- Records lie beyond the cursor (R151). -/
def Store.beyond (rs : Store) (c : SeqNo) : Bool := c != rs.nextSeq

/-- REPORT_READY withdrawn from a port (R151). -/
def State.withdrawReady (s : State) (p : Port) : State :=
  { s with notices := s.notices.put p ((s.notices.get p).withdraw .reportReady) }

/-- The port's reader moved, with the space it counts against (R147, R150). -/
def State.moveReader (s : State) (p : Port) (rd : Reader) : State := State.settleSpace (s.setRs (s.rs.setReader p rd))

/-- REPORT_READY raised for a subscribed reader that a command left short of the newest record (R151). -/
def State.readyIfBeyond (s : State) (p : Port) : State :=
  let rd := s.rs.reader p
  if rd.subscribed && s.rs.beyond rd.cursor then
    s.raiseOn p (.reportReady (s.rs.newestHeld.getD 0))
  else s

/-- REPORT_READY withdrawn for a subscribed reader with no record beyond its cursor (R151). -/
def State.unreadyIfDone (s : State) (p : Port) : State :=
  let rd := s.rs.reader p
  if rd.subscribed && !s.rs.beyond rd.cursor then s.withdrawReady p else s

/-! ### READ RECORDS (R152) -/

/-- Whole records from the head as long as the next fits in `room`; with the length of the one that did not fit. -/
def takeFitting (room : Nat) : List Record → List Record × Option Nat
  | [] => ([], none)
  | r :: rest =>
    if r.length ≤ room then
      let t := takeFitting (room - r.length) rest
      (r :: t.1, t.2)
    else ([], some r.length)

/-- READ RECORDS taken with a size in its range (R152). -/
def State.takeRecords (s : State) (p : Port) (size : Nat) : Answer :=
  let rd := s.rs.reader p
  let c := s.rs.closeGap rd.cursor
  let t := takeFitting size (s.rs.records.drop (c.1 - s.rs.oldest).toNat)
  let cursor := c.1 + BitVec.ofNat 32 t.1.length
  let s1 := (s.moveReader p { rd with cursor := cursor }).unreadyIfDone p
  s1.okWith (.records
    { records := t.1
      misfit := t.2
      gap := c.2
      cursor := cursor
      subscribed := rd.subscribed
      oldest := s1.rs.oldestHeld
      newest := s1.rs.newestHeld
      available := s1.rs.available
      reserve := s1.rs.reserve
      runDropped := s1.rs.runDropped
      totalDropped := s1.rs.totalDropped })

/-- READ RECORDS (R152). -/
def State.readRecords (s : State) (p : Port) (size : Option Nat) : Answer :=
  match size with
  | none => s.refuse .badField
  | some n => if 200 < n then s.refuse .badField else s.takeRecords p n

/-! ### REWIND, SEEK, SUBSCRIBE, UNSUBSCRIBE, ERASE STORE (R153 to R155) -/

/-- The reply of REWIND and SEEK: the cursor and the oldest and newest numbers held (R153). -/
def State.position (s : State) (p : Port) : ReplyBody :=
  .position (s.rs.reader p).cursor s.rs.oldestHeld s.rs.newestHeld

/-- REWIND (R153). -/
def State.rewindReader (s : State) (p : Port) (suits : Bool) : Answer :=
  if suits then
    let s1 := (s.moveReader p { s.rs.reader p with cursor := s.rs.oldest }).readyIfBeyond p
    s1.okWith (s1.position p)
  else s.refuse .badField

/-- SEEK (R153). -/
def State.seekReader (s : State) (p : Port) (seq : Option SeqNo) : Answer :=
  match seq with
  | none => s.refuse .badField
  | some c =>
    if s.rs.inReach c then
      let s1 := ((s.moveReader p { s.rs.reader p with cursor := c }).readyIfBeyond p).unreadyIfDone p
      s1.okWith (s1.position p)
    else s.refuse .badField

/-- SUBSCRIBE (R154). -/
def State.subscribeReader (s : State) (p : Port) (suits : Bool) : Answer :=
  if suits then
    let rd := s.rs.reader p
    if rd.subscribed then s.okWith (.cursorGap none rd.cursor)
    else
      let c := s.rs.closeGap rd.cursor
      let s1 := (s.moveReader p { cursor := c.1, subscribed := true }).readyIfBeyond p
      s1.okWith (.cursorGap c.2 c.1)
  else s.refuse .badField

/-- UNSUBSCRIBE (R154). -/
def State.unsubscribeReader (s : State) (p : Port) (suits : Bool) : Answer :=
  if suits then
    let rd := s.rs.reader p
    if rd.subscribed then
      ((s.moveReader p { rd with subscribed := false }).withdrawReady p).okWith (.cursor rd.cursor)
    else s.okWith (.cursor rd.cursor)
  else s.refuse .badField

/-- ERASE STORE (R155). -/
def State.eraseStore (s : State) (suits : Bool) : Answer :=
  if s.sq.runState ≠ .idle then s.refuse .state
  else if !suits then s.refuse .badField
  else
    let s1 := State.settleSpace (s.setRs { s.rs with
      records := []
      cpReader := { s.rs.cpReader with cursor := s.rs.nextSeq }
      apReader := { s.rs.apReader with cursor := s.rs.nextSeq } })
    ((s1.withdrawReady .cp).withdrawReady .ap).ok

/-! ### Notices (R184 to R186) -/

/-- The entries of a pending set in priority order (R184). -/
def Notices.list (n : Notices) : List NoticeEntry := n.entries.toList.filterMap id

/-- READ NOTICES (R184). -/
def State.readNotices (s : State) (p : Port) (suits : Bool) : Answer :=
  if suits then
    State.okWith { s with notices := s.notices.put p Notices.cold } (.notices (s.notices.get p).list)
  else s.refuse .badField

/-- A routable kind has a place among the nine routes (R185). -/
def NoticeKind.routable (k : NoticeKind) : Option (Fin 9) := finOf 9 k.index.val

/-- ROUTE NOTICE (R185). -/
def State.routeNotice (s : State) (a : Option (Nat × Nat)) : Answer :=
  match a with
  | none => s.refuse .badField
  | some (kind, route) =>
    match (NoticeKind.ofCode kind).bind NoticeKind.routable, Route.ofCode route with
    | some k, some r =>
      State.okWith { s with notices := { s.notices with routes := upd s.notices.routes k r } }
        (.route s.notices.routes[k])
    | _, _ => s.refuse .badField

/-- RAISE TEST NOTICE (R186). -/
def State.raiseTest (s : State) (p : Port) (value : Option (BitVec 32)) : Answer :=
  match value with
  | none => s.refuse .badField
  | some v => (s.raiseOn p (.test v)).ok

/-! ### Transactions cut (R187, R188) -/

/-- A transaction in progress is cut: from the bytes clocked by now on, the data output sends fill (R187, R188). -/
def DataOutput.cutAt (d : DataOutput) (framing : Option Outgoing) : DataOutput :=
  match framing with
  | some o => { d with cut := some o }
  | none => d

/-- The transactions in progress on both ports cut; the framing of each is the caller's to clear. -/
def State.cutTransactions (s : State) : State :=
  { s with out := { s.out with cp := s.out.cp.cutAt s.ports.cp.framing, ap := s.out.ap.cutAt s.ports.ap.framing } }

/-! ### RESTART (R188) -/

/-- SQ after a RESTART (R75): the cold values, but for what R75 keeps and the pin decides. -/
def Sequencer.warm (sq : Sequencer) (estopN : Bool) : Sequencer :=
  { Sequencer.cold with
    runState := if estopN then .idle else .inhibited
    streamEnable := estopN
    lastRun := sq.lastRun
    options := sq.options
    startInstant := sq.startInstant
    count := sq.count
    lastClose := sq.lastClose
    impairments := sq.impairments
    overflow := sq.overflow }

/-- BS after a RESTART: the configurations kept, the live state cold (R122). -/
def BreakerSim.warm (bs : BreakerSim) : BreakerSim :=
  { breakers := bs.breakers.map (fun b => b.atArm false) }

/-- PR after a RESTART: the node id and the enable kept, the live state cold (R177). That the live
state takes in the next proposal number and the unsent event count: DESIGN CHOICE, log 74. -/
def Ring.warm (r : Ring) (light : Bool) : Ring :=
  { Ring.cold with node := r.node, enable := r.enable, ring := ringStart r.enable light }

/-- The part's live state reset, and both ports cleared, a transaction in progress being cut (steps 2 and 3 of R188); the routes
are kept. -/
def State.warmStart (s : State) : State :=
  State.driveOutputs
    { s.cutTransactions with
      sq := s.sq.warm s.pins.estopN
      bs := s.bs.warm
      biu := s.biu.warm
      pr := s.pr.warm s.pins.light
      ports := .cold
      notices := { NoticeBoard.cold with routes := s.notices.routes } }

/-- The changes of ring state and time source that the RESTART made, reported after START_UP (R164, R177, R188; log 42). -/
def State.reportWarmRing (s : State) (before : Ring) : State := (s.tellRing before.ring).tellSource before.timeSource

/-- RESTART (R188): its reply names the run ended and the START_UP record. -/
def State.restartPart (s : State) (suits : Bool) : Answer :=
  if suits then
    let s1 := (s.endRun .restart false).warmStart
    let c := s1.rs.commit s1.runNumber (.startUp true s1.stamp)
    let s2 := s1.commit (.startUp true s1.stamp)
    (s2.reportWarmRing s.pr).okWith (.restarted s.runNumber (if c.2 then some s1.rs.nextSeq else none))
  else s.refuse .badField

/-! ### Reset (R187) -/

/-- RESET_N falls: the part is held, every output inactive, both lines high, any transaction cut at that instant (R187). -/
def State.holdReset (s : State) : State :=
  { s.cutTransactions with
    pins := { s.pins with resetN := false }
    biu := { s.biu with driven := 0 }
    ports := { cp := { s.ports.cp with framing := none }, ap := { s.ports.ap with framing := none } }
    notices := { s.notices with cp := { s.notices.cp with attn := false }, ap := { s.notices.ap with attn := false } } }

/-- A cold start with the level that ESTOP_N has at its end: the cold values, START_UP as record 1, and an emergency stop
where the pin is low (R187, R156, R69). -/
def State.coldStart (s : State) (estopN : Bool) : State :=
  let s1 := State.cold { s.pins with resetN := true, estopN := estopN } s.pending
  let s2 := s1.commit (.startUp false s1.stamp)
  let s3 := { s2 with out := s.out }
  if estopN then s3 else s3.emergencyStop .pin

end Sys2Proof.Machine
end

