-- ==== Sys2Proof/Machine/Ports.lean ====
section
/-! DEFINITION. The port interface (10.1, 10.2): the reply queues, transactions, the judging of a command frame and the
taking of a command. -/

namespace Sys2Proof.Machine

def Transports.get (t : Transports) : Port → Transport
  | .cp => t.cp
  | .ap => t.ap

def Transports.put (t : Transports) (p : Port) (x : Transport) : Transports :=
  match p with
  | .cp => { t with cp := x }
  | .ap => { t with ap := x }

def State.port (s : State) (p : Port) : Transport := s.ports.get p

def State.setPort (s : State) (p : Port) (x : Transport) : State := { s with ports := s.ports.put p x }

/-- The reply queue is full (R180). -/
def Transport.full (t : Transport) : Bool := decide (4 ≤ t.queue.length)

/-- A reply joins the queue at its newest end (R180). -/
def State.pushReply (s : State) (p : Port) (r : Reply) : State :=
  s.setPort p { s.port p with queue := (s.port p).queue ++ [r] }

/-- A frame lost at a full queue: the overrun mark and the lost count (R180). -/
def State.loseFrame (s : State) (p : Port) : State :=
  s.setPort p { s.port p with overrun := true, lost := min 255 ((s.port p).lost + 1) }

/-- What a command answered joins its port's queue (R181). -/
def Answer.deliver (a : Answer) (p : Port) (tag : Byte) : State :=
  a.st.pushReply p { tag := tag, code := a.code, body := a.body }

/-- A command taken at the end of its transaction (R180, R181): at a full queue it is lost; in reset none is taken. -/
def State.takeCommand (s : State) (p : Port) (tag : Byte) (f : State → Answer) : State :=
  if !s.pins.resetN then s
  else if (s.port p).full then s.loseFrame p
  else (f s).deliver p tag

/-- A command without fields: a payload that is not empty does not suit it (R181). -/
def State.noFields (s : State) (suits : Bool) (a : Answer) : Answer := if suits then a else s.refuse .badField

/-! ### The commands by their codes (R190) -/

/-- A command executed from the payload of its frame; nothing for a code that names none (R179, R190). -/
def State.command (s : State) (p : Port) (estopN : Bool) (code : Nat) (payload : List Byte) : Option Answer :=
  let none' := payload.isEmpty
  match code with
  | 1 => some (s.setReference (byte.whole payload))
  | 2 => some (s.noFields none' s.clearSuspect)
  | 3 => some (s.readPicture none' (.time s.timePicture))
  | 4 => some (s.setTime (setTimeFields.whole payload))
  | 5 => some (s.setTrim ((signed 2).whole payload))
  | 6 => some (s.configureInput (inputFields.whole payload))
  | 7 => some (s.configureOutput (outputFields.whole payload))
  | 8 => some (s.setRestPattern (patternFields.whole payload))
  | 9 => some (s.readPicture none' (.inputs s.inputsPicture))
  | 10 => some (s.writeState p (slotOf payload) (recordFields.whole payload.tail))
  | 11 => some (s.clearState p (slotOf payload) (payload.length == 1))
  | 12 => some (s.readState (byte.whole payload))
  | 13 => some (s.declareChannel p (declareFields.whole payload))
  | 14 => some (s.setCalibration p (calFields.whole payload))
  | 15 => some (s.readPicture none' (.channels s.ws.shown))
  | 16 => some (s.configureBreaker (breakerFields.whole payload))
  | 17 => some (s.readPicture none' (.breakers s.breakersPicture))
  | 18 => some (s.defineMeasurement (measFields.whole payload))
  | 19 => some (s.readPicture none' (.measurements s.measurementsPicture))
  | 20 => some (s.armRun p (armFields.whole payload))
  | 21 => some (s.disarmRun p none')
  | 22 => some (s.startCommand p none')
  | 23 => some (s.advanceRun p none')
  | 24 => some (s.abortRun none')
  | 25 => some (s.stopCommand p none')
  | 26 => some (s.readPicture none' (.run s.runPicture))
  | 27 => some ((s.withEstopN estopN).clearInhibit none')
  | 28 => some (s.subscribeReader p none')
  | 29 => some (s.unsubscribeReader p none')
  | 30 => some (s.readRecords p (byte.whole payload))
  | 31 => some (s.rewindReader p none')
  | 32 => some (s.seekReader p (word32.whole payload))
  | 33 => some (s.eraseStore none')
  | 34 => some (s.configureRing (twoBytes.whole payload))
  | 35 => some (s.readPicture none' (.ring s.ringPicture))
  | 36 => some (s.readNotices p none')
  | 37 => some (s.routeNotice (twoBytes.whole payload))
  | 38 => some (s.raiseTest p (word32.whole payload))
  | 39 => some ((s.withEstopN estopN).restartPart none')
  | _ => none

/-! ### Frames (R179) -/

/-- A command frame that passed its length and check: code, tag and payload. -/
structure CommandFrame where
  code : Nat
  tag : Byte
  payload : List Byte
  deriving DecidableEq, Repr

/-- Checks 1 and 2 of R179 on the bytes clocked in. -/
def CommandFrame.ofBytes (l : List Byte) : Option CommandFrame :=
  match l with
  | code :: tag :: n :: rest =>
    if n.toNat ≤ 240 && decide (n.toNat + 2 ≤ rest.length) &&
        ((rest.drop n.toNat).take 2 == be 2 (crc16 (l.take (3 + n.toNat))).toNat) then
      some { code := code.toNat, tag := tag, payload := rest.take n.toNat }
    else none
  | _ => none

/-- The tag as it was received, or 0 when the transaction ended before it was clocked in (R179). -/
def receivedTag (l : List Byte) : Byte :=
  match l with
  | _ :: tag :: _ => tag
  | _ => 0

/-- A frame judged with room in the queue (R179). -/
def State.judgeFrame (s : State) (p : Port) (estopN : Bool) (l : List Byte) : State :=
  match CommandFrame.ofBytes l with
  | none => (s.refuse .badFrame).deliver p (receivedTag l)
  | some f =>
    if f.code = 0 then s
    else
      match s.command p estopN f.code f.payload with
      | some a => a.deliver p f.tag
      | none => (s.refuse .badCommand).deliver p f.tag

/-- The command frame judged after the outgoing frame is settled (R180). -/
def State.judge' (s : State) (p : Port) (estopN : Bool) (l : List Byte) : State :=
  if (s.port p).full then
    match CommandFrame.ofBytes l with
    | some f => if f.code = 0 then s else s.loseFrame p
    | none => s.loseFrame p
  else s.judgeFrame p estopN l

/-! ### Transactions (R178) -/

/-- A step of the part, but for one held in reset, in which nothing happens (R187). -/
def State.awake (s : State) (f : State → State) : State := if s.pins.resetN then f s else s

/-- The frame a transaction sends: the reply at the head, with OVERRUN and the lost count while the mark is set, or the
empty reply (R178, R180). -/
def Transport.choose (t : Transport) : Outgoing :=
  match t.queue with
  | [] => .emptyReply
  | r :: _ => .reply r (if t.overrun then some t.lost else none)

/-- Chip select falls: the outgoing frame is chosen (R178). -/
def State.beginTransaction (s : State) (p : Port) : State :=
  let t := s.port p
  match t.framing with
  | some _ => s
  | none => s.setPort p { t with framing := some t.choose }

/-- The outgoing frame settled after `n` bytes were clocked (R178, R180). -/
def Transport.settle (t : Transport) (o : Outgoing) (n : Nat) : Transport :=
  match o with
  | .emptyReply => { t with framing := none }
  | .reply _ overrun =>
    if o.length ≤ n then
      { framing := none
        queue := t.queue.tail
        overrun := if overrun.isSome then false else t.overrun
        lost := if overrun.isSome then 0 else t.lost }
    else { t with framing := none }

def Wires.get (w : Wires) : Port → DataOutput
  | .cp => w.cp
  | .ap => w.ap

def Wires.put (w : Wires) (p : Port) (d : DataOutput) : Wires :=
  match p with
  | .cp => { w with cp := d }
  | .ap => { w with ap := d }

/-- The first `n` bytes of a frame sent up to the place `upTo`, and fill bytes of all ones after it (R178). -/
def sentBytes (frame : List Byte) (upTo n : Nat) : List Byte :=
  let head := (frame.take upTo).take n
  head ++ List.replicate (n - head.length) 255

/-- What port `p` sends on its data output in a transaction that ends now: its outgoing frame, then fill (R178); where the
transaction was cut, the frame up to the bytes clocked by the cut (R187, R188; log 52); in reset, or where it began in reset,
fill (R187). -/
def State.dataOutput (s : State) (p : Port) (x : Transfer) : List Byte :=
  match (if s.pins.resetN then (s.port p).framing else none), (s.out.get p).cut with
  | some o, _ => sentBytes o.bytes x.bytes.length x.bytes.length
  | none, some o => sentBytes o.bytes x.byCut x.bytes.length
  | none, none => sentBytes [] 0 x.bytes.length

/-- The bytes that a transaction sent, on the record of the data output (R178). -/
def State.clockOut (s : State) (p : Port) (x : Transfer) : State :=
  let d := s.out.get p
  { s with out := s.out.put p { d with sent := d.sent ++ s.dataOutput p x, cut := none } }

/-- The outgoing frame settled and the command frame judged, with the outgoing frame `o` of a transaction that took in the bytes
`l`; one that ends before one byte changes nothing but the framing (R178 to R180). -/
def State.settleTransaction (s : State) (p : Port) (o : Outgoing) (l : List Byte) (estopN : Bool) : State :=
  match l with
  | [] => s.setPort p { s.port p with framing := none }
  | _ :: _ => (s.setPort p ((s.port p).settle o l.length)).judge' p estopN l

/-- Chip select rises after the bytes of `x` were clocked in whole (R178 to R180). A transaction that was cut or that the part did
not see begin, or any in reset, is disregarded (R187, R188). -/
def State.endTransaction (s : State) (p : Port) (x : Transfer) (estopN : Bool) : State :=
  (s.clockOut p x).awake (fun t => match (t.port p).framing with
    | none => t
    | some o => t.settleTransaction p o x.bytes estopN)

end Sys2Proof.Machine
end

