-- ==== Sys2Proof/Machine/Due.lean ====
section
/-! DEFINITION. What a frame boundary does (R4, R88), which of the clock's own events are due in the present microsecond, and
the order in which an idle step takes them (logs 2 and 3). -/

namespace Sys2Proof.Machine

/-! ### Events of a frame boundary (R4, R88) -/

/-- The start of an ARMED run falls on this boundary (R56, R59). -/
def State.startDue (s : State) (b : Tick) : Bool :=
  match s.sq.runState, s.sq.startPending with
  | .armed, some t => Tick.le t b
  | _, _ => false

/-- The start made where it falls on this boundary. -/
def State.startAt (s : State) (b : Tick) : State := if s.startDue b then s.openBoundary.startRun b else s

/-- The commit entry made where it falls on this boundary (R169). -/
def State.commitAt (s : State) (b : Tick) : State := if s.commitDue b then s.openBoundary.commitEntry b else s

/-- A released held trigger taken where it falls on this boundary (R168). -/
def State.heldAt (s : State) (b : Tick) : State :=
  match s.running, s.sq.heldDue with
  | true, some t => if Tick.le t b then s.openBoundary.takeHeld b else s
  | _, _ => s

/-- The pending transition made where it falls on this boundary (R65). -/
def State.transitionAt (s : State) (b : Tick) : State :=
  if s.running && s.sq.pendingTr.isSome then s.openBoundary.makeTransition b else s

/-- The time limit met where it falls on this boundary (R62). -/
def State.limitAt (s : State) (b : Tick) : State :=
  match s.running, s.limitDue b with
  | true, some target => s.openBoundary.meetLimit target b
  | _, _ => s

/-- The dwell instant taken where it falls on this boundary (R90). -/
def State.dwellAt (s : State) (b : Tick) : State :=
  match s.dwellDue b with
  | some (r, p) => s.openBoundary.dwell r p b
  | none => s

/-- A row that acts at the frame boundary of this microsecond, and not after that boundary's frame (log 4). -/
def State.atBoundary (s : State) (f : State → Tick → State) : State :=
  match s.boundaryNow with
  | some b => f s b
  | none => s

/-- The entries and steps due at a boundary, made before its frame (R88). R61 lets either of two exits of one boundary be first,
and R90 fixes no order of a dwell and the time limit: this order is a DESIGN CHOICE, log 56. -/
def State.dueAtBoundary (s : State) (b : Tick) : State :=
  (((((s.startAt b).commitAt b).heldAt b).transitionAt b).limitAt b).dwellAt b

/-- The frame of a boundary: R advanced, resumptions made, the channels computed and the frame produced; then what the frame
interrupted is handed over, and the picture that READ CHANNELS returns is taken (R80, R85, R88, R93, R96, R99). The picture shows
the number of the last frame delivered before this boundary's own: DESIGN CHOICE, log 66. -/
def State.frameAt (s : State) (b : Tick) : State :=
  let s1 := s.openBoundary.resumeChannels
  let s2 := (s1.computeChannels b).produceFrame b
  (State.naturalHandovers { s2 with now := { s2.now with boundary := true } } b).showChannels

/-- A frame boundary with the level of SLHOLD at it (R4, R97): the entries and steps due, then the events that waited for them at MU
(R130; log 72), then the frame. A low level while the pin stood high only lowers it, the release being SLHOLD_RELEASE's: DESIGN
CHOICE, log 79. -/
def State.frameBoundary (s : State) (slhold : Bool) : State :=
  s.atBoundary (fun s b =>
    State.frameAt (State.settleEvents
      (State.dueAtBoundary { s with pins := { s.pins with slhold := slhold } } b)) b)

/-! ### The sample link (R96, R97) -/

/-- The next frame whose turn has come is delivered (R96). -/
def State.deliverNext (s : State) : State :=
  match s.ws.linkQueue with
  | [] => s
  | f :: rest => State.deliver { s with ws := { s.ws with linkQueue := rest } } f false

/-- Every frame whose turn has come is delivered, oldest first (log 29). -/
def State.deliverAll (s : State) : State :=
  s.ws.linkQueue.foldl (fun s f => s.deliver f false) { s with ws := { s.ws with linkQueue := [] } }

/-- SLHOLD falls (R97, R98). -/
def State.releaseLink (s : State) : State :=
  let s1 := State.deliverAll { s with pins := { s.pins with slhold := false } }
  let s2 := match s1.ws.kept with
    | some f => State.deliver { s1 with ws := { s1.ws with kept := none } } f true
    | none => s1
  s2.endImpairment .streamSlip none s2.tb.et

/-! ### What is due now (logs 2 and 3) -/

/-- The first of the numbers below `n` for which something is due. -/
def firstDue {n : Nat} (due : Fin n → Bool) (row : Fin n → Instr) : Option Instr := ((List.finRange n).find? due).map row

/-- A row that is due or not. -/
def dueRow (due : Bool) (row : Instr) : Option Instr := if due then some row else none

/-- The boundary of a forced interruption that has still to be handed over, in a RUNNING run, once none of an earlier pole of
its breaker is left (R94, R105, R119). -/
def State.forcedDue (s : State) (c : Fin 10) : Option Tick :=
  if s.running && !s.forcedBefore c then
    match s.ws.channels[c].handover with
    | some (.forced t) => some t
    | some (.natural _) => none
    | none => none
  else none

/-- The clock's events that may be due in this microsecond, in the order of log 3. -/
def State.dueRows (s : State) : List (Option Instr) :=
  [ dueRow s.watchDue .markWatchExpiry,
    dueRow s.holdoverDue .holdoverExpiry,
    firstDue (fun c => (s.forcedDue c).isSome) .forcedInterruption,
    dueRow s.sampleNow.isSome (.inputSample s.pins.bi),
    firstDue (fun i => (s.acceptDue i).isSome) .debounceAccept,
    firstDue (fun i => (s.glitchDue i).isSome) .glitch,
    firstDue (fun i => (s.clearDue i).isSome) .chatterClear,
    dueRow s.atTimeStands .atTimeMet,
    dueRow s.proposalTimedOut .proposalTimeout,
    firstDue (fun k => (s.dueFailures k).isSome) .failToOpen,
    firstDue (fun k => (s.duePoles k .opening false).isSome) .poleParted,
    firstDue (fun k => (s.duePoles k .closing false).isSome) .poleClosed,
    firstDue (fun k => (s.duePoles k .opening true).isSome) .openingDeadline,
    firstDue (fun k => (s.duePoles k .closing true).isSome) .failToClose,
    firstDue (fun m => (s.windowDue m).isSome) .windowExpiry,
    firstDue s.memberGone .memberTimeout,
    dueRow s.beaconDue.isSome .beaconSend,
    dueRow s.boundaryNow.isSome (.frameBoundary s.pins.slhold),
    dueRow (!s.ws.linkQueue.isEmpty) .sampleFrameDelivery ]

/-- The first event due in this microsecond. -/
def State.nextDue (s : State) : Option Instr := s.dueRows.findSome? id

/-- TRIM_CORRECTION: the next microsecond is a correcting one, and nothing is left to do in this one (R2, log 4). -/
def State.trimCorrection (s : State) : State :=
  if s.tb.correcting && s.nextDue.isNone then s.correctingMicrosecond else s

/-- What the part does of its own on an empty queue, the events being run by `run`: held in reset nothing (R187); else the
first event due in this microsecond, else the next microsecond (R1, R2, R4; logs 2 and 3). -/
def State.idle (s : State) (run : Instr → State → Host.Outcome State Fault Refusal) : Host.Outcome State Fault Refusal :=
  if s.pins.resetN then
    match s.nextDue with
    | some i => run i s
    | none => if s.tb.correcting then run .trimCorrection s else .next s.plainMicrosecond
  else .next s

end Sys2Proof.Machine
end

