-- ==== Sys2Proof/Machine/BreakerRows.lean ====
section
/-! DEFINITION. The steps of the breaker simulator, one meaning per row (chapter 6). A clock row that is not due changes nothing (log 4). -/

namespace Sys2Proof.Machine

/-- CONFIGURE_BREAKER (R102, R103). -/
def execConfigureBreaker (p : Port) (tag : Byte) (a : BreakerArgs) (s : State) : Host.Outcome State Fault Refusal :=
  .next (s.takeCommand p tag (fun s => s.configureBreaker (some a)))

/-- READ_BREAKERS (R120). -/
def execReadBreakers (p : Port) (tag : Byte) (s : State) : Host.Outcome State Fault Refusal :=
  .next (s.takeCommand p tag (fun s => s.readPicture true (.breakers s.breakersPicture)))

/-- POLE_PARTED: the poles of a SIMULATED breaker whose parting instant is reached (R107, R108; log 26). -/
def execPoleParted (k : Fin 4) (s : State) : Host.Outcome State Fault Refusal :=
  .next (s.awake (fun s => match s.duePoles k .opening false with
    | some (t, sel) => s.onBreakers (fun x => x.partGroup k sel t none)
    | none => s))

/-- POLE_CLOSED: the poles of a SIMULATED breaker whose closing completes (R112; log 26). -/
def execPoleClosed (k : Fin 4) (s : State) : Host.Outcome State Fault Refusal :=
  .next (s.awake (fun s => match s.duePoles k .closing false with
    | some (t, sel) => s.onBreakers (fun x => x.completeGroup k sel t none)
    | none => s))

/-- FAIL_TO_OPEN: programmed failures that fall due (R109; log 26). -/
def execFailToOpen (k : Fin 4) (s : State) : Host.Outcome State Fault Refusal :=
  .next (s.awake (fun s => match s.dueFailures k with
    | some (t, sel) => s.onBreakers (fun x => x.failuresDue k sel t)
    | none => s))

/-- OPENING_DEADLINE: the deadline of poles of a FEEDBACK breaker that are still OPENING (R115; log 26). -/
def execOpeningDeadline (k : Fin 4) (s : State) : Host.Outcome State Fault Refusal :=
  .next (s.awake (fun s => match s.duePoles k .opening true with
    | some (t, sel) => s.onBreakers (fun x => x.openingDeadlines k sel t)
    | none => s))

/-- FAIL_TO_CLOSE: the deadline of poles of a FEEDBACK breaker that are still CLOSING (R116; log 26). -/
def execFailToClose (k : Fin 4) (s : State) : Host.Outcome State Fault Refusal :=
  .next (s.awake (fun s => match s.duePoles k .closing true with
    | some (t, sel) => s.onBreakers (fun x => x.closingDeadlines k sel t)
    | none => s))

/-- FORCED_INTERRUPTION: a channel cut after 200 frames is handed over (R94, R108). -/
def execForcedInterruption (c : Fin 10) (s : State) : Host.Outcome State Fault Refusal :=
  .next (s.awake (fun s => match s.forcedDue c with
    | some t => s.forcedHandover c t
    | none => s))

end Sys2Proof.Machine
end

