-- ==== Sys2Proof/Machine/InputRows.lean ====
section
/-! DEFINITION. The steps of the binary input unit, one meaning per row (chapter 2). A clock row that is not due changes nothing (log 4). -/

namespace Sys2Proof.Machine

/-- CONFIGURE_INPUT (R20). -/
def execConfigureInput (p : Port) (tag : Byte) (a : InputArgs) (s : State) : Host.Outcome State Fault Refusal :=
  .next (s.takeCommand p tag (fun s => s.configureInput (some a)))

/-- CONFIGURE_OUTPUT (R30). -/
def execConfigureOutput (p : Port) (tag : Byte) (output : Nat) (f : OutputFuncArg) (s : State) : Host.Outcome State Fault Refusal :=
  .next (s.takeCommand p tag (fun s => s.configureOutput (some (output, f))))

/-- SET_REST_PATTERN (R31). -/
def execSetRestPattern (p : Port) (tag : Byte) (pattern : BitVec 8) (s : State) : Host.Outcome State Fault Refusal :=
  .next (s.takeCommand p tag (fun s => s.setRestPattern (some pattern)))

/-- READ_INPUTS (R29). -/
def execReadInputs (p : Port) (tag : Byte) (s : State) : Host.Outcome State Fault Refusal :=
  .next (s.takeCommand p tag (fun s => s.readPicture true (.inputs s.inputsPicture)))

/-- INPUT_SAMPLE: the sixteen pins sampled, at the sampling instant of this microsecond (R19, R21). -/
def execInputSample (levels : BitVec 16) (s : State) : Host.Outcome State Fault Refusal :=
  .next (s.awake (fun s => match s.sampleNow with
    | some t => s.sampleInputs t levels
    | none => s))

/-- DEBOUNCE_ACCEPT: a candidate that has stood for Tdb is accepted (R22, R24, R27). -/
def execDebounceAccept (i : Fin 16) (s : State) : Host.Outcome State Fault Refusal :=
  .next (s.awake (fun s => match s.acceptDue i with
    | some (t, c) => s.acceptEdge i t c
    | none => s))

/-- GLITCH: a candidate that returned to the stable level is rejected (R23). -/
def execGlitch (i : Fin 16) (s : State) : Host.Outcome State Fault Refusal :=
  .next (s.awake (fun s => match s.glitchDue i with
    | some (t, c) => s.rejectGlitch i t c
    | none => s))

/-- CHATTER_CLEAR: a CHATTERING input clears (R25). -/
def execChatterClear (i : Fin 16) (s : State) : Host.Outcome State Fault Refusal :=
  .next (s.awake (fun s => match s.clearDue i with
    | some t => s.clearChatter i t
    | none => s))

end Sys2Proof.Machine
end

