-- ==== Sys2Proof/Machine/MeasureRows.lean ====
section
/-! DEFINITION. The steps of the measurement unit, one meaning per row (chapter 7). A clock row that is not due changes nothing (log 4). -/

namespace Sys2Proof.Machine

/-- DEFINE_MEASUREMENT (R123). -/
def execDefineMeasurement (p : Port) (tag : Byte) (a : MeasArgs) (s : State) : Host.Outcome State Fault Refusal :=
  .next (s.takeCommand p tag (fun s => s.defineMeasurement (some a)))

/-- READ_MEASUREMENTS (R139). -/
def execReadMeasurements (p : Port) (tag : Byte) (s : State) : Host.Outcome State Fault Refusal :=
  .next (s.takeCommand p tag (fun s => s.readPicture true (.measurements s.measurementsPicture)))

/-- WINDOW_EXPIRY: the window of a NO_OPERATE measurement ends (R132). -/
def execWindowExpiry (m : Fin 32) (s : State) : Host.Outcome State Fault Refusal :=
  .next (s.awake (fun s => match s.windowDue m with
    | some t => s.windowExpiry m t
    | none => s))

end Sys2Proof.Machine
end

