-- ==== Sys2Proof/Machine/PortRows.lean ====
section
/-! DEFINITION. The steps of the port interface and of reset, one meaning per row (chapter 10). -/

namespace Sys2Proof.Machine

/-- READ_NOTICES (R184). -/
def execReadNotices (p : Port) (tag : Byte) (s : State) : Host.Outcome State Fault Refusal :=
  .next (s.takeCommand p tag (fun s => s.readNotices p true))

/-- ROUTE_NOTICE (R185). -/
def execRouteNotice (p : Port) (tag : Byte) (kind route : Nat) (s : State) : Host.Outcome State Fault Refusal :=
  .next (s.takeCommand p tag (fun s => s.routeNotice (some (kind, route))))

/-- RAISE_TEST_NOTICE (R186). -/
def execRaiseTestNotice (p : Port) (tag : Byte) (value : BitVec 32) (s : State) : Host.Outcome State Fault Refusal :=
  .next (s.takeCommand p tag (fun s => s.raiseTest p (some value)))

/-- RESTART, with the level of ESTOP_N at it (R188). -/
def execRestart (p : Port) (tag : Byte) (estopN : Bool) (s : State) : Host.Outcome State Fault Refusal :=
  .next (s.takeCommand p tag (fun s => (s.withEstopN estopN).restartPart true))

/-- TRANSACTION_START: chip select falls and the outgoing frame is chosen (R178). -/
def execTransactionStart (p : Port) (s : State) : Host.Outcome State Fault Refusal :=
  .next (s.awake (fun s => s.beginTransaction p))

/-- TRANSACTION_END: chip select rises after the bytes clocked in; as many have gone out, the frame taken in is judged and its
command taken (R178 to R181); in reset only fill goes out (R187). -/
def execTransactionEnd (p : Port) (transfer : Transfer) (estopN : Bool) (s : State) :
    Host.Outcome State Fault Refusal :=
  .next (s.endTransaction p transfer estopN)

/-- RESET_ASSERT (R187). -/
def execResetAssert (s : State) : Host.Outcome State Fault Refusal :=
  .next (s.holdReset)

/-- COLD_START, with the level of ESTOP_N at its end (R187). -/
def execColdStart (estopN : Bool) (s : State) : Host.Outcome State Fault Refusal :=
  .next (s.coldStart estopN)

end Sys2Proof.Machine
end

