-- ==== Sys2Proof/Machine/RingRows.lean ====
section
/-! DEFINITION. The steps of the peer ring, one meaning per row (chapter 9). A clock row that is not due changes nothing (log 4). -/

namespace Sys2Proof.Machine

/-- CONFIGURE_RING (R158). -/
def execConfigureRing (p : Port) (tag : Byte) (node enable : Nat) (s : State) : Host.Outcome State Fault Refusal :=
  .next (s.takeCommand p tag (fun s => s.configureRing (some (node, enable))))

/-- READ_RING (R175). -/
def execReadRing (p : Port) (tag : Byte) (s : State) : Host.Outcome State Fault Refusal :=
  .next (s.takeCommand p tag (fun s => s.readPicture true (.ring s.ringPicture)))

/-- BEACON_SEND: a device-time millisecond at a lit, enabled ring (R160, R161). -/
def execBeaconSend (s : State) : Host.Outcome State Fault Refusal :=
  .next (s.awake (fun s => match s.beaconDue with
    | some t => s.sendBeacon t
    | none => s))

/-- MEMBER_TIMEOUT: a member of which no beacon has arrived for 3 rounds leaves the set (R162). -/
def execMemberTimeout (n : Fin 4) (s : State) : Host.Outcome State Fault Refusal :=
  .next (s.awake (fun s => if s.memberGone n then s.dropMember n else s))

/-- LIGHT_GAINED; in reset only the pin changes (R161). -/
def execLightGained (s : State) : Host.Outcome State Fault Refusal :=
  .next (State.awake { s with pins := { s.pins with light := true } } (fun s => s.lightGained))

/-- LIGHT_LOST; in reset only the pin changes (R161). -/
def execLightLost (s : State) : Host.Outcome State Fault Refusal :=
  .next (State.awake { s with pins := { s.pins with light := false } } (fun s => s.lightLost))

/-- Arriving bytes that spell a message of type `type` are handled; other bytes are of another row, or are discarded
(R193). -/
def State.receive (s : State) (type : Nat) (bytes : List Byte) (act : Message → State → State) : State :=
  s.awake (fun s => match Message.ofBytes s.pr.node bytes with
    | some m => if m.body.type = type then s.handle m (act m) else s
    | none => s)

/-- BEACON_RECEIVED (R159 to R163, R174). -/
def execBeaconReceived (bytes : List Byte) (s : State) : Host.Outcome State Fault Refusal :=
  .next (s.receive 0 bytes (fun m s => match m.body with
    | .beacon b => s.beaconArrives m.orig m.hop b
    | _ => s))

/-- PROPOSE_RECEIVED (R166, R167, R172). -/
def execProposeReceived (bytes : List Byte) (s : State) : Host.Outcome State Fault Refusal :=
  .next (s.receive 1 bytes (fun m s => match m.body with
    | .propose joint number target mode => s.proposeArrives joint { proposer := m.orig, number := number, target := target, mode := mode }
    | _ => s))

/-- ACCEPT_RECEIVED (R169). -/
def execAcceptReceived (bytes : List Byte) (s : State) : Host.Outcome State Fault Refusal :=
  .next (s.receive 2 bytes (fun m s => match m.body with
    | .accept joint proposer number => s.acceptArrives m.orig joint proposer number
    | _ => s))

/-- DECLINE_RECEIVED (R171). -/
def execDeclineReceived (bytes : List Byte) (s : State) : Host.Outcome State Fault Refusal :=
  .next (s.receive 3 bytes (fun m s => match m.body with
    | .decline joint proposer number => s.declineArrives joint proposer number
    | _ => s))

/-- COMMIT_RECEIVED (R169). -/
def execCommitReceived (bytes : List Byte) (s : State) : Host.Outcome State Fault Refusal :=
  .next (s.receive 4 bytes (fun m s => match m.body with
    | .commit joint number tc => s.commitArrives m.orig joint number tc
    | _ => s))

/-- WITHDRAW_RECEIVED (R168, R170). -/
def execWithdrawReceived (bytes : List Byte) (s : State) : Host.Outcome State Fault Refusal :=
  .next (s.receive 5 bytes (fun m s => match m.body with
    | .withdraw joint number => s.withdrawArrives m.orig joint number
    | _ => s))

/-- EVENT_RECEIVED (R113, R127, R174). -/
def execEventReceived (bytes : List Byte) (s : State) : Host.Outcome State Fault Refusal :=
  .next (s.receive 6 bytes (fun m s => match m.body with
    | .event e dev q => s.eventArrives m.orig e dev q
    | _ => s))

/-- ABORT_RECEIVED (R165). -/
def execAbortReceived (bytes : List Byte) (s : State) : Host.Outcome State Fault Refusal :=
  .next (s.receive 7 bytes (fun m s => match m.body with
    | .abort joint cause => s.abortArrives m.orig joint cause
    | _ => s))

/-- PROPOSAL_TIMEOUT: an ACCEPT is missing 100,000 ticks after the PROPOSE (R171). -/
def execProposalTimeout (s : State) : Host.Outcome State Fault Refusal :=
  .next (s.awake (fun s => if s.proposalTimedOut then s.abortProposal else s))

/-- COMMIT_ENTRY: the commit entry that falls on the boundary of this microsecond (R169). -/
def execCommitEntry (s : State) : Host.Outcome State Fault Refusal :=
  .next (s.awake (fun s => s.atBoundary (fun s b => s.commitAt b)))

/-- HELD_TRIGGER_TAKEN: the released held trigger that falls on the boundary of this microsecond (R168). -/
def execHeldTriggerTaken (s : State) : Host.Outcome State Fault Refusal :=
  .next (s.awake (fun s => s.atBoundary (fun s b => s.heldAt b)))

end Sys2Proof.Machine
end

