-- ==== Sys2Proof/Machine/RunRows.lean ====
section
/-! DEFINITION. The steps of the sequencer, one meaning per row (chapter 4). A clock row that is not due changes nothing (log 4). -/

namespace Sys2Proof.Machine

/-- ARM (R53, R54). -/
def execArm (p : Port) (tag : Byte) (a : ArmArgs) (s : State) : Host.Outcome State Fault Refusal :=
  .next (s.takeCommand p tag (fun s => s.armRun p (some a)))

/-- DISARM (R55). -/
def execDisarm (p : Port) (tag : Byte) (s : State) : Host.Outcome State Fault Refusal :=
  .next (s.takeCommand p tag (fun s => s.disarmRun p true))

/-- START (R56). -/
def execStart (p : Port) (tag : Byte) (s : State) : Host.Outcome State Fault Refusal :=
  .next (s.takeCommand p tag (fun s => s.startCommand p true))

/-- ADVANCE (R63). -/
def execAdvance (p : Port) (tag : Byte) (s : State) : Host.Outcome State Fault Refusal :=
  .next (s.takeCommand p tag (fun s => s.advanceRun p true))

/-- ABORT (R68). -/
def execAbort (p : Port) (tag : Byte) (s : State) : Host.Outcome State Fault Refusal :=
  .next (s.takeCommand p tag (fun s => s.abortRun true))

/-- EMERGENCY_STOP (R69). -/
def execEmergencyStop (p : Port) (tag : Byte) (s : State) : Host.Outcome State Fault Refusal :=
  .next (s.takeCommand p tag (fun s => s.stopCommand p true))

/-- READ_RUN (R73). -/
def execReadRun (p : Port) (tag : Byte) (s : State) : Host.Outcome State Fault Refusal :=
  .next (s.takeCommand p tag (fun s => s.readPicture true (.run s.runPicture)))

/-- CLEAR_INHIBIT, with the level of ESTOP_N at it (R70). -/
def execClearInhibit (p : Port) (tag : Byte) (estopN : Bool) (s : State) : Host.Outcome State Fault Refusal :=
  .next (s.takeCommand p tag (fun s => (s.withEstopN estopN).clearInhibit true))

/-- ESTOP_N_FALL: the pin falls; in reset only its level changes (R69). -/
def execEstopNFall (s : State) : Host.Outcome State Fault Refusal :=
  .next ((s.withEstopN false).awake (fun s => s.emergencyStop .pin))

/-- AT_TIME_MET: device time has reached the start instant of an ARMED run (R57). -/
def execAtTimeMet (s : State) : Host.Outcome State Fault Refusal :=
  .next (s.awake (fun s => s.checkAtTime))

/-- RUN_START: a start that falls on the boundary of this microsecond (R59). -/
def execRunStart (s : State) : Host.Outcome State Fault Refusal :=
  .next (s.awake (fun s => s.atBoundary (fun s b => s.startAt b)))

/-- TRANSITION: the pending transition that falls on the boundary of this microsecond (R61, R65). -/
def execTransition (s : State) : Host.Outcome State Fault Refusal :=
  .next (s.awake (fun s => s.atBoundary (fun s b => s.transitionAt b)))

/-- TIME_LIMIT: the time limit that falls on the boundary of this microsecond (R62). -/
def execTimeLimit (s : State) : Host.Outcome State Fault Refusal :=
  .next (s.awake (fun s => s.atBoundary (fun s b => s.limitAt b)))

end Sys2Proof.Machine
end

