-- ==== Sys2Proof/Machine/StoreRows.lean ====
section
/-! DEFINITION. The steps of the report store, one meaning per row (chapter 8). -/

namespace Sys2Proof.Machine

/-- SUBSCRIBE (R154). -/
def execSubscribe (p : Port) (tag : Byte) (s : State) : Host.Outcome State Fault Refusal :=
  .next (s.takeCommand p tag (fun s => s.subscribeReader p true))

/-- UNSUBSCRIBE (R154). -/
def execUnsubscribe (p : Port) (tag : Byte) (s : State) : Host.Outcome State Fault Refusal :=
  .next (s.takeCommand p tag (fun s => s.unsubscribeReader p true))

/-- READ_RECORDS (R152). -/
def execReadRecords (p : Port) (tag : Byte) (size : Nat) (s : State) : Host.Outcome State Fault Refusal :=
  .next (s.takeCommand p tag (fun s => s.readRecords p (some size)))

/-- REWIND (R153). -/
def execRewind (p : Port) (tag : Byte) (s : State) : Host.Outcome State Fault Refusal :=
  .next (s.takeCommand p tag (fun s => s.rewindReader p true))

/-- SEEK (R153). -/
def execSeek (p : Port) (tag : Byte) (seq : SeqNo) (s : State) : Host.Outcome State Fault Refusal :=
  .next (s.takeCommand p tag (fun s => s.seekReader p (some seq)))

/-- ERASE_STORE (R155). -/
def execEraseStore (p : Port) (tag : Byte) (s : State) : Host.Outcome State Fault Refusal :=
  .next (s.takeCommand p tag (fun s => s.eraseStore true))

end Sys2Proof.Machine
end

