-- ==== Sys2Proof/Machine/SynthRows.lean ====
section
/-! DEFINITION. The steps of the waveform synthesizer and the sample link, one meaning per row (chapter 5). A clock row that is not due changes nothing (log 4). -/

namespace Sys2Proof.Machine

/-- DECLARE_CHANNEL (R76, R77). -/
def execDeclareChannel (p : Port) (tag : Byte) (channel : Nat) (d : DeclArg) (s : State) : Host.Outcome State Fault Refusal :=
  .next (s.takeCommand p tag (fun s => s.declareChannel p (some (channel, d))))

/-- SET_CALIBRATION (R79). -/
def execSetCalibration (p : Port) (tag : Byte) (a : CalArgs) (s : State) : Host.Outcome State Fault Refusal :=
  .next (s.takeCommand p tag (fun s => s.setCalibration p (some a)))

/-- READ_CHANNELS: the picture of the last frame boundary (R99, log 37). -/
def execReadChannels (p : Port) (tag : Byte) (s : State) : Host.Outcome State Fault Refusal :=
  .next (s.takeCommand p tag (fun s => s.readPicture true (.channels s.ws.shown)))

/-- FRAME_BOUNDARY: the boundary of this microsecond, with the level of SLHOLD at it (R4, R88, R96, R97). -/
def execFrameBoundary (slhold : Bool) (s : State) : Host.Outcome State Fault Refusal :=
  .next (s.awake (fun s => s.frameBoundary slhold))

/-- SAMPLE_FRAME_DELIVERY (R96). -/
def execSampleFrameDelivery (s : State) : Host.Outcome State Fault Refusal :=
  .next (s.awake (fun s => s.deliverNext))

/-- SLHOLD_RELEASE: SLHOLD falls; in reset only the pin changes (R97, R98). -/
def execSlholdRelease (s : State) : Host.Outcome State Fault Refusal :=
  .next (State.awake { s with pins := { s.pins with slhold := false } } (fun s => s.releaseLink))

/-- RAMP_STEP: the dwell instant that falls on the boundary of this microsecond (R90 to R92). -/
def execRampStep (s : State) : Host.Outcome State Fault Refusal :=
  .next (s.awake (fun s => s.atBoundary (fun s b => s.dwellAt b)))

end Sys2Proof.Machine
end

