-- ==== Sys2Proof/Machine/TableRows.lean ====
section
/-! DEFINITION. The steps of the state table, one meaning per row (chapter 3). -/

namespace Sys2Proof.Machine

/-- WRITE_STATE (R42 to R44). -/
def execWriteState (p : Port) (tag : Byte) (slot : Nat) (r : RecordArg) (s : State) : Host.Outcome State Fault Refusal :=
  .next (s.takeCommand p tag (fun s => s.writeState p (some slot) (some r)))

/-- CLEAR_STATE (R45). -/
def execClearState (p : Port) (tag : Byte) (slot : Nat) (s : State) : Host.Outcome State Fault Refusal :=
  .next (s.takeCommand p tag (fun s => s.clearState p (some slot) true))

/-- READ_STATE (R47). -/
def execReadState (p : Port) (tag : Byte) (slot : Nat) (s : State) : Host.Outcome State Fault Refusal :=
  .next (s.takeCommand p tag (fun s => s.readState (some slot)))

end Sys2Proof.Machine
end

