-- ==== Sys2Proof/Machine/TimeRows.lean ====
section
/-! DEFINITION. The steps of the time base, one meaning per row (chapter 1). A clock row that is not due changes nothing (log 4). -/

namespace Sys2Proof.Machine

/-- SET_REFERENCE: NONE, PPS or RING by its code (R6). -/
def execSetReference (p : Port) (tag : Byte) (source : Nat) (s : State) : Host.Outcome State Fault Refusal :=
  .next (s.takeCommand p tag (fun s => s.setReference (some source)))

/-- CLEAR_TIME_SUSPECT (R13). -/
def execClearTimeSuspect (p : Port) (tag : Byte) (s : State) : Host.Outcome State Fault Refusal :=
  .next (s.takeCommand p tag (fun s => s.clearSuspect))

/-- READ_TIME (R17). -/
def execReadTime (p : Port) (tag : Byte) (s : State) : Host.Outcome State Fault Refusal :=
  .next (s.takeCommand p tag (fun s => s.readPicture true (.time s.timePicture)))

/-- SET_TIME (R14). -/
def execSetTime (p : Port) (tag : Byte) (seconds micros : Nat) (s : State) : Host.Outcome State Fault Refusal :=
  .next (s.takeCommand p tag (fun s => s.setTime (some (seconds, micros))))

/-- SET_TRIM (R5). -/
def execSetTrim (p : Port) (tag : Byte) (trim : Int) (s : State) : Host.Outcome State Fault Refusal :=
  .next (s.takeCommand p tag (fun s => s.setTrim (some trim)))

/-- REFERENCE_MARK: a rising edge on REFPPS (R7, R8). -/
def execReferenceMark (s : State) : Host.Outcome State Fault Refusal :=
  .next (s.awake (fun s => s.ppsMark))

/-- TRIM_CORRECTION: the correcting microsecond, when it comes next (R2). -/
def execTrimCorrection (s : State) : Host.Outcome State Fault Refusal :=
  .next (s.awake (fun s => s.trimCorrection))

/-- MARK_WATCH_EXPIRY (R12). -/
def execMarkWatchExpiry (s : State) : Host.Outcome State Fault Refusal :=
  .next (s.awake (fun s => if s.watchDue then s.watchExpiry else s))

/-- HOLDOVER_EXPIRY (R12). -/
def execHoldoverExpiry (s : State) : Host.Outcome State Fault Refusal :=
  .next (s.awake (fun s => if s.holdoverDue then s.holdoverExpiry else s))


end Sys2Proof.Machine
end

