-- ==== Sys2Proof/Machine/Dispatch.lean ====
section
/-! DEFINITION. One arm per row of spec/opcode_table.json, each a direct call of that row's meaning. -/

namespace Sys2Proof.Machine

def exec (i : Instr) (s : State) : Host.Outcome State Fault Refusal :=
  match i with
  | .setReference p tag source => Sys2Proof.Machine.execSetReference p tag source s
  | .clearTimeSuspect p tag => Sys2Proof.Machine.execClearTimeSuspect p tag s
  | .readTime p tag => Sys2Proof.Machine.execReadTime p tag s
  | .setTime p tag seconds micros => Sys2Proof.Machine.execSetTime p tag seconds micros s
  | .setTrim p tag trim => Sys2Proof.Machine.execSetTrim p tag trim s
  | .configureInput p tag a => Sys2Proof.Machine.execConfigureInput p tag a s
  | .configureOutput p tag output f => Sys2Proof.Machine.execConfigureOutput p tag output f s
  | .setRestPattern p tag pattern => Sys2Proof.Machine.execSetRestPattern p tag pattern s
  | .readInputs p tag => Sys2Proof.Machine.execReadInputs p tag s
  | .writeState p tag slot r => Sys2Proof.Machine.execWriteState p tag slot r s
  | .clearState p tag slot => Sys2Proof.Machine.execClearState p tag slot s
  | .readState p tag slot => Sys2Proof.Machine.execReadState p tag slot s
  | .declareChannel p tag channel d => Sys2Proof.Machine.execDeclareChannel p tag channel d s
  | .setCalibration p tag a => Sys2Proof.Machine.execSetCalibration p tag a s
  | .readChannels p tag => Sys2Proof.Machine.execReadChannels p tag s
  | .configureBreaker p tag a => Sys2Proof.Machine.execConfigureBreaker p tag a s
  | .readBreakers p tag => Sys2Proof.Machine.execReadBreakers p tag s
  | .defineMeasurement p tag a => Sys2Proof.Machine.execDefineMeasurement p tag a s
  | .readMeasurements p tag => Sys2Proof.Machine.execReadMeasurements p tag s
  | .arm p tag a => Sys2Proof.Machine.execArm p tag a s
  | .disarm p tag => Sys2Proof.Machine.execDisarm p tag s
  | .start p tag => Sys2Proof.Machine.execStart p tag s
  | .advance p tag => Sys2Proof.Machine.execAdvance p tag s
  | .abort p tag => Sys2Proof.Machine.execAbort p tag s
  | .emergencyStop p tag => Sys2Proof.Machine.execEmergencyStop p tag s
  | .readRun p tag => Sys2Proof.Machine.execReadRun p tag s
  | .clearInhibit p tag estopN => Sys2Proof.Machine.execClearInhibit p tag estopN s
  | .subscribe p tag => Sys2Proof.Machine.execSubscribe p tag s
  | .unsubscribe p tag => Sys2Proof.Machine.execUnsubscribe p tag s
  | .readRecords p tag size => Sys2Proof.Machine.execReadRecords p tag size s
  | .rewind p tag => Sys2Proof.Machine.execRewind p tag s
  | .seek p tag seq => Sys2Proof.Machine.execSeek p tag seq s
  | .eraseStore p tag => Sys2Proof.Machine.execEraseStore p tag s
  | .configureRing p tag node enable => Sys2Proof.Machine.execConfigureRing p tag node enable s
  | .readRing p tag => Sys2Proof.Machine.execReadRing p tag s
  | .readNotices p tag => Sys2Proof.Machine.execReadNotices p tag s
  | .routeNotice p tag kind route => Sys2Proof.Machine.execRouteNotice p tag kind route s
  | .raiseTestNotice p tag value => Sys2Proof.Machine.execRaiseTestNotice p tag value s
  | .restart p tag estopN => Sys2Proof.Machine.execRestart p tag estopN s
  | .transactionStart p => Sys2Proof.Machine.execTransactionStart p s
  | .transactionEnd p transfer estopN => Sys2Proof.Machine.execTransactionEnd p transfer estopN s
  | .resetAssert => Sys2Proof.Machine.execResetAssert s
  | .coldStart estopN => Sys2Proof.Machine.execColdStart estopN s
  | .estopNFall => Sys2Proof.Machine.execEstopNFall s
  | .referenceMark => Sys2Proof.Machine.execReferenceMark s
  | .trimCorrection => Sys2Proof.Machine.execTrimCorrection s
  | .markWatchExpiry => Sys2Proof.Machine.execMarkWatchExpiry s
  | .holdoverExpiry => Sys2Proof.Machine.execHoldoverExpiry s
  | .frameBoundary slhold => Sys2Proof.Machine.execFrameBoundary slhold s
  | .sampleFrameDelivery => Sys2Proof.Machine.execSampleFrameDelivery s
  | .slholdRelease => Sys2Proof.Machine.execSlholdRelease s
  | .inputSample levels => Sys2Proof.Machine.execInputSample levels s
  | .debounceAccept n => Sys2Proof.Machine.execDebounceAccept n s
  | .glitch n => Sys2Proof.Machine.execGlitch n s
  | .chatterClear n => Sys2Proof.Machine.execChatterClear n s
  | .atTimeMet => Sys2Proof.Machine.execAtTimeMet s
  | .runStart => Sys2Proof.Machine.execRunStart s
  | .transition => Sys2Proof.Machine.execTransition s
  | .timeLimit => Sys2Proof.Machine.execTimeLimit s
  | .rampStep => Sys2Proof.Machine.execRampStep s
  | .poleParted k => Sys2Proof.Machine.execPoleParted k s
  | .poleClosed k => Sys2Proof.Machine.execPoleClosed k s
  | .failToOpen k => Sys2Proof.Machine.execFailToOpen k s
  | .openingDeadline k => Sys2Proof.Machine.execOpeningDeadline k s
  | .failToClose k => Sys2Proof.Machine.execFailToClose k s
  | .forcedInterruption c => Sys2Proof.Machine.execForcedInterruption c s
  | .windowExpiry m => Sys2Proof.Machine.execWindowExpiry m s
  | .beaconSend => Sys2Proof.Machine.execBeaconSend s
  | .memberTimeout n => Sys2Proof.Machine.execMemberTimeout n s
  | .lightGained => Sys2Proof.Machine.execLightGained s
  | .lightLost => Sys2Proof.Machine.execLightLost s
  | .beaconReceived bytes => Sys2Proof.Machine.execBeaconReceived bytes s
  | .proposeReceived bytes => Sys2Proof.Machine.execProposeReceived bytes s
  | .acceptReceived bytes => Sys2Proof.Machine.execAcceptReceived bytes s
  | .declineReceived bytes => Sys2Proof.Machine.execDeclineReceived bytes s
  | .commitReceived bytes => Sys2Proof.Machine.execCommitReceived bytes s
  | .withdrawReceived bytes => Sys2Proof.Machine.execWithdrawReceived bytes s
  | .eventReceived bytes => Sys2Proof.Machine.execEventReceived bytes s
  | .abortReceived bytes => Sys2Proof.Machine.execAbortReceived bytes s
  | .proposalTimeout => Sys2Proof.Machine.execProposalTimeout s
  | .commitEntry => Sys2Proof.Machine.execCommitEntry s
  | .heldTriggerTaken => Sys2Proof.Machine.execHeldTriggerTaken s

end Sys2Proof.Machine
end

