-- ==== Sys2Proof/Machine/CommandFrames.lean ====
section
/-! DEFINITION. The command frame that carries a command (R190): the writing counterpart of Machine/Payloads.lean, of which
the part itself has no need. It says which bytes on a port stand for which row of the opcode table. -/

namespace Sys2Proof.Machine

/-- One byte of a field. -/
def b1 (x : Nat) : List Byte := be 1 x

/-- A list of arguments with its count. -/
def manyBytes {α : Type} (f : α → List Byte) (l : List α) : List Byte := b1 l.length ++ l.flatMap f

/-- The fields of CONFIGURE INPUT (R20). -/
def inputBytes (a : InputArgs) : List Byte :=
  b1 a.input ++ b1 a.polarity ++ be 2 a.tdb ++ b1 a.limit ++ b1 a.shared ++ b1 a.soe

def outputFuncBytes : OutputFuncArg → List Byte
  | .sequence => b1 0
  | .aux k w => b1 1 ++ b1 k ++ b1 w
  | .other c => b1 c

def setpointBytes (a : SetpointArg) : List Byte := be 3 a.mag ++ beInt 2 a.angle ++ be 3 a.freq ++ present (be 2) a.tau

def condBytes : CondArg → List Byte
  | .input i l => b1 0 ++ b1 i ++ b1 l
  | .remoteInput n i l => b1 1 ++ b1 n ++ b1 i ++ b1 l
  | .breaker k w => b1 (2 + w) ++ b1 k
  | .peer => b1 5
  | .advance => b1 6
  | .rampDone => b1 7
  | .other c => b1 c

def triggerBytes (a : TriggerArg) : List Byte := condBytes a.cond ++ b1 a.target ++ b1 a.mode

def rampBytes (a : RampArg) : List Byte :=
  be 2 a.mask ++ b1 a.quantity ++ beInt 3 a.delta ++ be 3 a.dwell ++ be 2 a.maxSteps

/-- A state record as WRITE STATE carries it (R35 to R41). -/
def recordBytes (a : RecordArg) : List Byte :=
  b1 a.kind ++ present (fun v => v.toList.flatMap setpointBytes) a.setpoints ++ present b1 a.anchor ++
    present b1 a.pattern ++ present (fun v => v.toList.flatMap b1) a.actions ++
    present (fun l => be 4 l.1 ++ b1 l.2) a.limit ++ manyBytes triggerBytes a.triggers ++ present rampBytes a.ramp

def declareBytes (channel : Nat) : DeclArg → List Byte
  | .ready m => b1 channel ++ b1 0 ++ be 3 m
  | .fault => b1 channel ++ b1 1
  | .other c => b1 channel ++ b1 c

def calBytes (a : CalArgs) : List Byte :=
  b1 a.channel ++ beInt 2 a.gain ++ beInt 1 a.phaseTrim ++ beInt 2 a.offset

def sourceBytes : SourceArg → List Byte
  | .localInput i => b1 0 ++ b1 i
  | .remoteInput n i => b1 1 ++ b1 n ++ b1 i
  | .other c => b1 c

def modeBytes : ModeArg → List Byte
  | .simulated => b1 0
  | .feedback i => b1 1 ++ b1 i
  | .other c => b1 c

/-- The fields of CONFIGURE BREAKER (R102). -/
def breakerBytes (a : BreakerArgs) : List Byte :=
  b1 a.breaker ++ manyBytes (fun t => sourceBytes t.1 ++ b1 t.2) a.trips ++ manyBytes sourceBytes a.closes ++
    be 3 a.opening ++ be 3 a.closing ++ a.scatter.toList.flatMap (be 2) ++ modeBytes a.mode ++
    present (fun f => b1 f.1 ++ b1 f.2) a.fail ++ beOpt 1 a.out52a ++ beOpt 1 a.out52b ++
    a.assoc.toList.flatMap (manyBytes b1) ++ b1 a.shared

def refBytes : RefArg → List Byte
  | .stateEntry s => b1 1 ++ b1 s
  | .inputLocal i l => b1 2 ++ b1 0 ++ b1 i ++ b1 l
  | .inputRemote n i l => b1 2 ++ b1 1 ++ b1 n ++ b1 i ++ b1 l
  | .breaker k e => b1 3 ++ b1 k ++ b1 e
  | .other c => b1 c

def startRefBytes : StartRefArg → List Byte
  | .runStart => b1 0
  | .onEvent r n => refBytes r ++ b1 n

def stopRefBytes : StopRefArg → List Byte
  | .runStart => b1 0
  | .onEvent r => refBytes r

/-- The fields of DEFINE MEASUREMENT (R123). -/
def measBytes (a : MeasArgs) : List Byte :=
  b1 a.index ++ b1 a.kind ++ present startRefBytes a.start ++ present stopRefBytes a.stop ++
    present (fun t => be 4 t.1 ++ be 4 t.2) a.time ++
    present (fun v => b1 v.1 ++ b1 v.2.1 ++ beInt 3 v.2.2.1 ++ be 3 v.2.2.2) a.value ++ present (be 2) a.rel ++
    present (be 4) a.window ++ be 2 a.notify

def startCondBytes : StartArg → List Byte
  | .command => b1 0
  | .atTime s u => b1 1 ++ be 4 s ++ be 4 u
  | .input i l => b1 2 ++ b1 i ++ b1 l
  | .peer => b1 3
  | .other c => b1 c

/-- The fields of ARM (R53). -/
def armBytes (a : ArmArgs) : List Byte :=
  b1 a.first ++ startCondBytes a.start ++ be 3 a.nominal ++ b1 a.lock ++ be 2 a.joint ++
    a.positions.toList.flatMap b1 ++ be 4 a.mask.toNat

/-- A command as its frame carries it: the port, the tag, the command code and the payload. -/
structure Carried where
  port : Port
  tag : Byte
  code : Nat
  payload : List Byte
  deriving DecidableEq, Repr

/-- What carries a row of the opcode table on a port; an event is carried by none (R190). -/
def carried : Instr → Option Carried
  | .setReference p tag source => some { port := p, tag := tag, code := 1, payload := b1 source }
  | .clearTimeSuspect p tag => some { port := p, tag := tag, code := 2, payload := [] }
  | .readTime p tag => some { port := p, tag := tag, code := 3, payload := [] }
  | .setTime p tag seconds micros => some { port := p, tag := tag, code := 4, payload := be 4 seconds ++ be 4 micros }
  | .setTrim p tag trim => some { port := p, tag := tag, code := 5, payload := beInt 2 trim }
  | .configureInput p tag a => some { port := p, tag := tag, code := 6, payload := inputBytes a }
  | .configureOutput p tag output f => some { port := p, tag := tag, code := 7, payload := outputFuncBytes f ++ b1 output }
  | .setRestPattern p tag pattern => some { port := p, tag := tag, code := 8, payload := b1 pattern.toNat }
  | .readInputs p tag => some { port := p, tag := tag, code := 9, payload := [] }
  | .writeState p tag slot r => some { port := p, tag := tag, code := 10, payload := b1 slot ++ recordBytes r }
  | .clearState p tag slot => some { port := p, tag := tag, code := 11, payload := b1 slot }
  | .readState p tag slot => some { port := p, tag := tag, code := 12, payload := b1 slot }
  | .declareChannel p tag channel d => some { port := p, tag := tag, code := 13, payload := declareBytes channel d }
  | .setCalibration p tag a => some { port := p, tag := tag, code := 14, payload := calBytes a }
  | .readChannels p tag => some { port := p, tag := tag, code := 15, payload := [] }
  | .configureBreaker p tag a => some { port := p, tag := tag, code := 16, payload := breakerBytes a }
  | .readBreakers p tag => some { port := p, tag := tag, code := 17, payload := [] }
  | .defineMeasurement p tag a => some { port := p, tag := tag, code := 18, payload := measBytes a }
  | .readMeasurements p tag => some { port := p, tag := tag, code := 19, payload := [] }
  | .arm p tag a => some { port := p, tag := tag, code := 20, payload := armBytes a }
  | .disarm p tag => some { port := p, tag := tag, code := 21, payload := [] }
  | .start p tag => some { port := p, tag := tag, code := 22, payload := [] }
  | .advance p tag => some { port := p, tag := tag, code := 23, payload := [] }
  | .abort p tag => some { port := p, tag := tag, code := 24, payload := [] }
  | .emergencyStop p tag => some { port := p, tag := tag, code := 25, payload := [] }
  | .readRun p tag => some { port := p, tag := tag, code := 26, payload := [] }
  | .clearInhibit p tag _ => some { port := p, tag := tag, code := 27, payload := [] }
  | .subscribe p tag => some { port := p, tag := tag, code := 28, payload := [] }
  | .unsubscribe p tag => some { port := p, tag := tag, code := 29, payload := [] }
  | .readRecords p tag size => some { port := p, tag := tag, code := 30, payload := b1 size }
  | .rewind p tag => some { port := p, tag := tag, code := 31, payload := [] }
  | .seek p tag seq => some { port := p, tag := tag, code := 32, payload := be 4 seq.toNat }
  | .eraseStore p tag => some { port := p, tag := tag, code := 33, payload := [] }
  | .configureRing p tag node enable => some { port := p, tag := tag, code := 34, payload := b1 node ++ b1 enable }
  | .readRing p tag => some { port := p, tag := tag, code := 35, payload := [] }
  | .readNotices p tag => some { port := p, tag := tag, code := 36, payload := [] }
  | .routeNotice p tag kind route => some { port := p, tag := tag, code := 37, payload := b1 kind ++ b1 route }
  | .raiseTestNotice p tag value => some { port := p, tag := tag, code := 38, payload := be 4 value.toNat }
  | .restart p tag _ => some { port := p, tag := tag, code := 39, payload := [] }
  | .transactionStart _ => none
  | .transactionEnd _ _ _ => none
  | .resetAssert => none
  | .coldStart _ => none
  | .estopNFall => none
  | .referenceMark => none
  | .trimCorrection => none
  | .markWatchExpiry => none
  | .holdoverExpiry => none
  | .frameBoundary _ => none
  | .sampleFrameDelivery => none
  | .slholdRelease => none
  | .inputSample _ => none
  | .debounceAccept _ => none
  | .glitch _ => none
  | .chatterClear _ => none
  | .atTimeMet => none
  | .runStart => none
  | .transition => none
  | .timeLimit => none
  | .rampStep => none
  | .poleParted _ => none
  | .poleClosed _ => none
  | .failToOpen _ => none
  | .openingDeadline _ => none
  | .failToClose _ => none
  | .forcedInterruption _ => none
  | .windowExpiry _ => none
  | .beaconSend => none
  | .memberTimeout _ => none
  | .lightGained => none
  | .lightLost => none
  | .beaconReceived _ => none
  | .proposeReceived _ => none
  | .acceptReceived _ => none
  | .declineReceived _ => none
  | .commitReceived _ => none
  | .withdrawReceived _ => none
  | .eventReceived _ => none
  | .abortReceived _ => none
  | .proposalTimeout => none
  | .commitEntry => none
  | .heldTriggerTaken => none

/-- The frame on the wire: code, tag, length, payload and check (R190). -/
def Carried.frame (c : Carried) : List Byte :=
  withCrc (b1 c.code ++ [c.tag] ++ b1 c.payload.length ++ c.payload)

end Sys2Proof.Machine
end

