-- ==== Sys2Proof/WellFormed.lean ====
section
/-! DEFINITION. Well-formed commands: every operand is one that the fields of a command frame can carry (R189, R190; widths,
log 10). A field outside its command's range is well formed, and is refused by the command's own checks (R181). -/

namespace Sys2Proof

/-- An unsigned field of `n` bytes. -/
def fits (n x : Nat) : Bool := decide (x < 256 ^ n)

/-- A signed field of `n` bytes, two's complement. -/
def fitsInt (n : Nat) (x : Int) : Bool :=
  decide (-(256 ^ n : Nat) ≤ 2 * x) && decide (2 * x < (256 ^ n : Nat))

/-- An optional field. -/
def optFits {α : Type} (f : α → Bool) : Option α → Bool
  | none => true
  | some a => f a

/-- A list with its count in one byte. -/
def listFits {α : Type} (f : α → Bool) (l : List α) : Bool := decide (l.length < 256) && l.all f

/-- A code of a variant that has `n` named codes: any other code of one byte. -/
def otherCode (n x : Nat) : Bool := decide (n ≤ x) && fits 1 x

def InputArgs.fits (a : InputArgs) : Bool :=
  Sys2Proof.fits 1 a.input && Sys2Proof.fits 1 a.polarity && Sys2Proof.fits 2 a.tdb && Sys2Proof.fits 1 a.limit &&
    Sys2Proof.fits 1 a.shared && Sys2Proof.fits 1 a.soe

def OutputFuncArg.fits : OutputFuncArg → Bool
  | .sequence => true
  | .aux k w => Sys2Proof.fits 1 k && Sys2Proof.fits 1 w
  | .other c => otherCode 2 c

def SetpointArg.fits (a : SetpointArg) : Bool :=
  Sys2Proof.fits 3 a.mag && fitsInt 2 a.angle && Sys2Proof.fits 3 a.freq && optFits (Sys2Proof.fits 2) a.tau

def CondArg.fits : CondArg → Bool
  | .input i l => Sys2Proof.fits 1 i && Sys2Proof.fits 1 l
  | .remoteInput n i l => Sys2Proof.fits 1 n && Sys2Proof.fits 1 i && Sys2Proof.fits 1 l
  | .breaker k w => Sys2Proof.fits 1 k && decide (w < 3)
  | .peer => true
  | .advance => true
  | .rampDone => true
  | .other c => otherCode 8 c

def TriggerArg.fits (a : TriggerArg) : Bool := a.cond.fits && Sys2Proof.fits 1 a.target && Sys2Proof.fits 1 a.mode

def RampArg.fits (a : RampArg) : Bool :=
  Sys2Proof.fits 2 a.mask && Sys2Proof.fits 1 a.quantity && fitsInt 3 a.delta && Sys2Proof.fits 3 a.dwell &&
    Sys2Proof.fits 2 a.maxSteps

def RecordArg.fits (a : RecordArg) : Bool :=
  Sys2Proof.fits 1 a.kind && optFits (fun v => v.toList.all SetpointArg.fits) a.setpoints &&
    optFits (Sys2Proof.fits 1) a.anchor && optFits (Sys2Proof.fits 1) a.pattern &&
    optFits (fun v => v.toList.all (Sys2Proof.fits 1)) a.actions &&
    optFits (fun l => Sys2Proof.fits 4 l.1 && Sys2Proof.fits 1 l.2) a.limit && listFits TriggerArg.fits a.triggers &&
    optFits RampArg.fits a.ramp

def DeclArg.fits : DeclArg → Bool
  | .ready m => Sys2Proof.fits 3 m
  | .fault => true
  | .other c => otherCode 2 c

def CalArgs.fits (a : CalArgs) : Bool :=
  Sys2Proof.fits 1 a.channel && fitsInt 2 a.gain && fitsInt 1 a.phaseTrim && fitsInt 2 a.offset

def SourceArg.fits : SourceArg → Bool
  | .localInput i => Sys2Proof.fits 1 i
  | .remoteInput n i => Sys2Proof.fits 1 n && Sys2Proof.fits 1 i
  | .other c => otherCode 2 c

def ModeArg.fits : ModeArg → Bool
  | .simulated => true
  | .feedback i => Sys2Proof.fits 1 i
  | .other c => otherCode 2 c

/-- A number of one byte that is not 255, the code of none (R189). -/
def belowNone (x : Nat) : Bool := decide (x < 255)

def BreakerArgs.fits (a : BreakerArgs) : Bool :=
  Sys2Proof.fits 1 a.breaker && listFits (fun t => t.1.fits && Sys2Proof.fits 1 t.2) a.trips &&
    listFits SourceArg.fits a.closes && Sys2Proof.fits 3 a.opening && Sys2Proof.fits 3 a.closing &&
    a.scatter.toList.all (Sys2Proof.fits 2) && a.mode.fits &&
    optFits (fun f => Sys2Proof.fits 1 f.1 && Sys2Proof.fits 1 f.2) a.fail && optFits belowNone a.out52a &&
    optFits belowNone a.out52b && a.assoc.toList.all (listFits (Sys2Proof.fits 1)) && Sys2Proof.fits 1 a.shared

def RefArg.fits : RefArg → Bool
  | .stateEntry s => Sys2Proof.fits 1 s
  | .inputLocal i l => Sys2Proof.fits 1 i && Sys2Proof.fits 1 l
  | .inputRemote n i l => Sys2Proof.fits 1 n && Sys2Proof.fits 1 i && Sys2Proof.fits 1 l
  | .breaker k e => Sys2Proof.fits 1 k && Sys2Proof.fits 1 e
  | .other c => otherCode 4 c

def StartRefArg.fits : StartRefArg → Bool
  | .runStart => true
  | .onEvent r n => r.fits && Sys2Proof.fits 1 n

def StopRefArg.fits : StopRefArg → Bool
  | .runStart => true
  | .onEvent r => r.fits

def MeasArgs.fits (a : MeasArgs) : Bool :=
  Sys2Proof.fits 1 a.index && Sys2Proof.fits 1 a.kind && optFits StartRefArg.fits a.start &&
    optFits StopRefArg.fits a.stop && optFits (fun t => Sys2Proof.fits 4 t.1 && Sys2Proof.fits 4 t.2) a.time &&
    optFits (fun v => Sys2Proof.fits 1 v.1 && Sys2Proof.fits 1 v.2.1 && fitsInt 3 v.2.2.1 && Sys2Proof.fits 3 v.2.2.2)
      a.value &&
    optFits (Sys2Proof.fits 2) a.rel && optFits (Sys2Proof.fits 4) a.window && Sys2Proof.fits 2 a.notify

def StartArg.fits : StartArg → Bool
  | .command => true
  | .atTime s u => Sys2Proof.fits 4 s && Sys2Proof.fits 4 u
  | .input i l => Sys2Proof.fits 1 i && Sys2Proof.fits 1 l
  | .peer => true
  | .other c => otherCode 4 c

def ArmArgs.fits (a : ArmArgs) : Bool :=
  Sys2Proof.fits 1 a.first && a.start.fits && Sys2Proof.fits 3 a.nominal && Sys2Proof.fits 1 a.lock &&
    Sys2Proof.fits 2 a.joint && a.positions.toList.all (Sys2Proof.fits 1)

/-- A command whose operands fit the fields of its frame; events carry nothing that could fail to fit. -/
def Instr.wellFormed : Instr → Bool
  | .setReference _ _ source => fits 1 source
  | .clearTimeSuspect _ _ => true
  | .readTime _ _ => true
  | .setTime _ _ seconds micros => fits 4 seconds && fits 4 micros
  | .setTrim _ _ trim => fitsInt 2 trim
  | .configureInput _ _ a => a.fits
  | .configureOutput _ _ output f => fits 1 output && f.fits
  | .setRestPattern _ _ _ => true
  | .readInputs _ _ => true
  | .writeState _ _ slot r => fits 1 slot && r.fits
  | .clearState _ _ slot => fits 1 slot
  | .readState _ _ slot => fits 1 slot
  | .declareChannel _ _ channel d => fits 1 channel && d.fits
  | .setCalibration _ _ a => a.fits
  | .readChannels _ _ => true
  | .configureBreaker _ _ a => a.fits
  | .readBreakers _ _ => true
  | .defineMeasurement _ _ a => a.fits
  | .readMeasurements _ _ => true
  | .arm _ _ a => a.fits
  | .disarm _ _ => true
  | .start _ _ => true
  | .advance _ _ => true
  | .abort _ _ => true
  | .emergencyStop _ _ => true
  | .readRun _ _ => true
  | .clearInhibit _ _ _ => true
  | .subscribe _ _ => true
  | .unsubscribe _ _ => true
  | .readRecords _ _ size => fits 1 size
  | .rewind _ _ => true
  | .seek _ _ _ => true
  | .eraseStore _ _ => true
  | .configureRing _ _ node enable => fits 1 node && fits 1 enable
  | .readRing _ _ => true
  | .readNotices _ _ => true
  | .routeNotice _ _ kind route => fits 1 kind && fits 1 route
  | .raiseTestNotice _ _ _ => true
  | .restart _ _ _ => true
  | .transactionStart _ => true
  | .transactionEnd _ _ _ => true
  | .resetAssert => true
  | .coldStart _ => true
  | .estopNFall => true
  | .referenceMark => true
  | .trimCorrection => true
  | .markWatchExpiry => true
  | .holdoverExpiry => true
  | .frameBoundary _ => true
  | .sampleFrameDelivery => true
  | .slholdRelease => true
  | .inputSample _ => true
  | .debounceAccept _ => true
  | .glitch _ => true
  | .chatterClear _ => true
  | .atTimeMet => true
  | .runStart => true
  | .transition => true
  | .timeLimit => true
  | .rampStep => true
  | .poleParted _ => true
  | .poleClosed _ => true
  | .failToOpen _ => true
  | .openingDeadline _ => true
  | .failToClose _ => true
  | .forcedInterruption _ => true
  | .windowExpiry _ => true
  | .beaconSend => true
  | .memberTimeout _ => true
  | .lightGained => true
  | .lightLost => true
  | .beaconReceived _ => true
  | .proposeReceived _ => true
  | .acceptReceived _ => true
  | .declineReceived _ => true
  | .commitReceived _ => true
  | .withdrawReceived _ => true
  | .eventReceived _ => true
  | .abortReceived _ => true
  | .proposalTimeout => true
  | .commitEntry => true
  | .heldTriggerTaken => true

end Sys2Proof
end

