-- ==== Sys2Proof/Safety.lean ====
section
/-! DEFINITION. What holds of the part at every instant, block by block, and the words in which the claims speak: what a claim
needs of a state before a step, and what it says of the state after it. -/

namespace Sys2Proof.Machine

/-! ### Premises of claims -/

/-- Out of reset and with room in the reply queue of port `p`: a command of that port is taken (R180, R187). -/
def State.Takes (s : State) (p : Port) : Prop := s.pins.resetN = true ∧ (s.port p).queue.length < 4

/-- The state after a command that port `p` gave with `tag` was answered: the reply is the newest of the queue (R181). -/
def State.replied (s : State) (p : Port) (tag : Byte) (code : ResultCode) (body : ReplyBody) : State :=
  s.pushReply p { tag := tag, code := code, body := body }

/-- A boundary of the grid falls now and has not been given; the part is out of reset (R4). -/
def State.AtBoundary (s : State) (b : Tick) : Prop := s.pins.resetN = true ∧ s.boundaryNow = some b

/-- The part of a record that an entry hands on; an END record has none (3.2). -/
def StateRecord.live : StateRecord → Option LiveBody
  | .steady b => some b
  | .ramp b _ => some b
  | .endState => none

/-- Slot `k` holds a STEADY or RAMP record with the part `b` that passes its entry checks, and its entry is not the 65,535th
(R48, R65). -/
def State.CanEnter (s : State) (k : Fin 64) (b : LiveBody) : Prop :=
  (s.st.slots[k]).bind StateRecord.live = some b ∧ s.entryCheck k = none ∧ s.sq.count + 1 ≠ 65535

/-- Channel `c` fails its entry check with this cause: it is unavailable and the record gives it a magnitude or ramps its
magnitude; or it is available and the record's magnitude is above its declared maximum (R48). -/
def State.FailsChannel (s : State) (b : LiveBody) (ramp : Option RampSpec) (c : Fin 10) (cause : TrapCause) : Prop :=
  let unavailable := s.ws.channels[c].forced = true ∨ ∀ m, s.ws.channels[c].decl ≠ .ready m
  let used := (b.setpoints[c]).mag ≠ 0 ∨ ∃ r, ramp = some r ∧ r.quantity = .magnitude ∧ inSet r.mask c.val = true
  unavailable ∧ used ∧ cause = .channelUnavailable ∨
    ¬(unavailable ∧ used) ∧ (∃ m, s.ws.channels[c].decl = .ready m ∧ m < (b.setpoints[c]).mag) ∧ cause = .range

/-- A trigger that has a meaning in a joint run alone (R48). -/
def Trigger.NeedsRing (t : Trigger) : Prop :=
  t.mode ≠ .alone ∨ t.cond = .peer ∨ ∃ n i l, t.cond = .remoteInput n i l

/-- This part's PEER_WAIT proposal `x` stands and is not yet committed (R170). -/
def State.WaitsToAccept (s : State) (x : Proposal) : Prop :=
  s.pr.proposal.role = .proposer ∧ s.pr.proposal.prop = some x ∧ x.mode = .wait ∧ s.pr.proposal.tc = none

/-- The store holds what the commit of one record leaves (R144, R148, R149). -/
def State.Recorded (s : State) (body : RecordBody) (t : State) : Prop :=
  t.rs.records = (s.rs.commit s.runNumber body).1.records ∧ t.rs.nextSeq = (s.rs.commit s.runNumber body).1.nextSeq

/-- The store holds what the commits of these records leave, one after another (R144, R148, R149). -/
def State.RecordedAll (s : State) (bodies : List RecordBody) (t : State) : Prop :=
  t.rs.records = (bodies.foldl (fun r b => (r.commit s.runNumber b).1) s.rs).records ∧
    t.rs.nextSeq = (bodies.foldl (fun r b => (r.commit s.runNumber b).1) s.rs).nextSeq

/-- The route names port `q` (R185). -/
def Route.Names (r : Route) (q : Port) : Prop := r = .both ∨ r = .cp ∧ q = .cp ∨ r = .ap ∧ q = .ap

/-- Every port that the route names holds the notice with this detail word (R182, R185). -/
def State.Notified (t : State) (r : Route) (d : Detail) : Prop :=
  ∀ q : Port, r.Names q → ∃ e, (t.notices.get q).entries[d.kind.index] = some e ∧ e.detail = d

/-- What an entry of the setpoint `p` makes of channel `x`: the setpoint in force and what it feeds (R82), the accumulator anchored
to `ref` or run on (R83), and the DC term that the continuity directs: 0, or what carries the last sample on, but 0 in a channel
INTERRUPTED or forced (R84). -/
def Channel.EnteredAs (x : Channel) (p : Setpoint) (anchored : Bool) (ref : Phase) (y : Channel) : Prop :=
  y.mag = p.mag ∧ y.angle = p.angle ∧ y.freq = p.freq ∧ y.amp = amplitude p.mag ∧ y.phi = phaseOffset p.angle x.phaseTrim ∧
    y.inc = increment p.freq ∧ y.acc = (if anchored then ref else x.acc) ∧ (p.tau = none → y.dc = 0) ∧
    ∀ t, p.tau = some t → y.kq = decayFactor t ∧
      y.dc = if x.intr = .interrupted ∨ x.forced = true then 0 else x.sLast - acTerm y.amp y.phi y.acc

/-- `t` is RUNNING in slot `k`, entered for `cause` at boundary `at'` one entry later than `s`: every channel has taken the part `b`
from what it was before (R65, R82 to R84), a RAMP has no step made and its first dwell instant one dwell on (R90), and STATE_ENTRY
is recorded after the records `before` (R65). -/
def State.Entered (s : State) (k : Fin 64) (b : LiveBody) (cause : EntryCause) (anchored : Bool) (at' : Tick)
    (channels : Vector Channel 10) (before : List RecordBody) (t : State) : Prop :=
  t.sq.runState = .running ∧ t.sq.active = some k ∧ t.sq.entryBoundary = some at' ∧ t.sq.count = s.sq.count + 1 ∧
    (∀ c : Fin 10, (channels[c]).EnteredAs (b.setpoints[c]) (anchored || b.anchor) t.ws.ref t.ws.channels[c]) ∧
    (s.st.slots[k] = some (.steady b) → t.ws.ramp = none) ∧
    (∀ r, s.st.slots[k] = some (.ramp b r) →
      t.ws.ramp = some { steps := 0, next := at' + BitVec.ofNat 48 r.dwell, ended := false }) ∧
    ∃ after, s.RecordedAll (before ++ [.stateEntry k cause (s.sq.count + 1) at'] ++ after) t

/-- The start of an ARMED run falls on boundary `b`, with the row that makes it and the record that row commits first: a pending
start (R59), or the START that was committed (R169). -/
inductive State.StartDue (s : State) (b : Tick) : Instr → List RecordBody → Prop
  | pending (x : Tick) : s.sq.startPending = some x → Tick.le x b = true → s.StartDue b .runStart []
  | commits (x : Proposal) (tc : Nat) : s.pr.proposal.prop = some x → s.pr.proposal.tc = some tc → s.commitDue b = true →
      x.target = none → s.StartDue b .commitEntry [.peerEvent (.committed x s.pr.proposal.late.isSome tc b)]

/-- An entry of a RUNNING run falls on boundary `b`: the row that makes it, the slot entered, its cause, and the record that row
commits first. -/
inductive State.EntryDue (s : State) (b : Tick) : Instr → Fin 64 → EntryCause → List RecordBody → Prop
  /-- R61, R65. -/
  | transition (x : PendingTransition) : s.sq.pendingTr = some x → Tick.le x.boundary b = true →
      s.EntryDue b .transition x.target (.exit x.cause) []
  /-- R62. -/
  | limit (k : Fin 64) : s.limitDue b = some k → s.sq.pendingTr = none → s.sq.heldDue = none → s.pr.holds = false →
      s.EntryDue b .timeLimit k (.exit .timeLimit) []
  /-- R170. -/
  | withdraws (k : Fin 64) (x : Proposal) : s.limitDue b = some k → s.sq.pendingTr = none → s.sq.heldDue = none →
      s.WaitsToAccept x → s.EntryDue b .timeLimit k (.exit .timeLimit) [.peerEvent (.withdrawn x)]
  /-- R169. -/
  | commits (k : Fin 64) (x : Proposal) (tc : Nat) : s.pr.proposal.prop = some x → s.pr.proposal.tc = some tc →
      s.commitDue b = true → x.target = some k →
      s.EntryDue b .commitEntry k .ringCommit [.peerEvent (.committed x s.pr.proposal.late.isSome tc b)]
  /-- R168: a LOCAL trigger that was held. -/
  | held (d : Tick) (h : HeldTrigger) (i : Nat) (tr : Trigger) : s.sq.heldDue = some d → Tick.le d b = true →
      s.sq.held = some h → h.cause = .trigger i → s.triggers[i]? = some tr → tr.mode = .alone →
      s.EntryDue b .heldTriggerTaken tr.target (.exit (.trigger i)) []
  /-- R168: a time limit that was held. -/
  | heldLimit (d : Tick) (h : HeldTrigger) (body : LiveBody) (duration : Nat) (k : Fin 64) : s.sq.heldDue = some d →
      Tick.le d b = true → s.sq.held = some h → h.cause = .timeLimit → s.activeBody = some body →
      body.limit = some (duration, k) → s.EntryDue b .heldTriggerTaken k (.exit .timeLimit) []

/-- What falls due next on breaker `k` at `at'`, an instant that has come and before which no pole that moves by itself falls due:
`sel` is the poles in state `st` whose pending instant it is, as far as no pole before them moves at it from another state (R105;
log 26). -/
def State.FallDue (s : State) (k : Fin 4) (st : PoleState) (at' : Tick) (sel : BitVec 3) : Prop :=
  let moves (p : Fin 3) (t : Tick) := (s.bs.breakers[k].poles[p].state = .opening ∨ s.bs.breakers[k].poles[p].state = .closing) ∧
    s.bs.breakers[k].poles[p].pending = some t
  sel ≠ 0 ∧ Tick.le at' s.tb.et = true ∧
    (∀ p t, moves p t → Tick.le t s.tb.et = true → Tick.lt t at' = false) ∧
    ∀ p : Fin 3, inSet sel p.val = true ↔ s.bs.breakers[k].poles[p].state = st ∧ s.bs.breakers[k].poles[p].pending = some at' ∧
      ∀ q < p, moves q at' → s.bs.breakers[k].poles[q].state = st

/-- Pole `p` acts at `at'` on the trip it remembers, if any, and the breaker becomes `b'` (R112): the trip is counted if it has no
number yet (R106), and the pole takes its operation from `at'`, or fails by the programme (R109). Every pole that remembers the
trip counted learns its number (log 25). -/
def Breaker.ActsOn (b : Breaker) (p : Fin 3) (at' : Tick) (b' : Breaker) : Prop :=
  (b.poles[p].remembered = none → b' = b) ∧
  ∀ r n count, b.poles[p].remembered = some r →
    (r.number = some n ∧ count = b.trips ∨ r.number = none ∧ n = count ∧ count = min 65535 (b.trips + 1)) →
    b' = { b with trips := count, poles := b'.poles } ∧
    (∀ due : Tick, due = at' + BitVec.ofNat 48 (b.cfg.opening + b.cfg.scatter[p]) →
      ((∃ mask, b.cfg.fail = some (n, mask) ∧ inSet mask p.val = true) →
        b'.poles[p] = { b.poles[p] with remembered := none, failure := some { at' := due, trip := n, late := false } }) ∧
      (¬(∃ mask, b.cfg.fail = some (n, mask) ∧ inSet mask p.val = true) →
        b'.poles[p] = { b.poles[p] with
          remembered := none, state := .opening, pending := some due, late := false, opTrip := some n })) ∧
    ∀ q : Fin 3, q ≠ p → b'.poles[q] = { b.poles[q] with
      remembered := b.poles[q].remembered.map (fun x =>
        if r.number = none ∧ x.serial = r.serial then { x with number := some n } else x) }

/-- Trip number `n` fails on pole `p` by the fail programme (R109). -/
def BreakerConfig.FailsOn (c : BreakerConfig) (n : Nat) (p : Fin 3) : Prop :=
  ∃ mask, c.fail = some (n, mask) ∧ inSet mask p.val = true

/-- The BREAKER_EVENT record of an event that names no channel and no reason (R117). -/
def breakerRecord (k : Fin 4) (pole : Option (Fin 3)) (kind : BreakerEventKind) (at' : Tick) (trip : Option Nat) (late : Bool)
    (feedback : Option Tick) : RecordBody :=
  .breakerEvent { k := k, pole := pole, kind := kind, at' := at', trip := trip, late := late, channel := none, reason := none
                  feedback := feedback }

/-- The records of pole `p` that parts at `at'`: POLE_PARTED, and POLE_OPEN of a pole that has no channel (R108, R117). -/
def Breaker.partedRecords (b : Breaker) (k : Fin 4) (p : Fin 3) (at' : Tick) (trip : Option Nat) (late : Bool)
    (feedback : Option Tick) : List RecordBody :=
  breakerRecord k (some p) .poleParted at' trip late feedback ::
    if (b.cfg.assoc[p]).isEmpty then [breakerRecord k (some p) .poleOpen at' trip false none] else []

/-- A trip of number `n`, taken at `taken` by the selected pole `p` of breaker `k`, whose operating time ends at `due`: the pole it
leaves, the records of failures and the records of partings that it brings at its taking (R106 to R110, R115). `number` is what a
remembering pole knows of `n`. That the records of the failures come first is log 26, and that an instant on the count which the
microsecond of the taking skips is past log 82. -/
inductive PoleTripped (k : Fin 4) (b : Breaker) (p : Fin 3) (n : Nat) (number : Option Nat) (due taken : Tick) :
    Pole → List RecordBody → List RecordBody → Prop
  /-- R109: the failure is pending until the pole would have parted. -/
  | fails : b.poles[p].state = .closed → b.cfg.FailsOn n p → Tick.lt due taken = false →
      PoleTripped k b p n number due taken { b.poles[p] with failure := some { at' := due, trip := n, late := false } } [] []
  /-- R109, R115: a failure, or a deadline of a FEEDBACK breaker, that is already past fails at the taking. -/
  | failsNow : b.poles[p].state = .closed → (b.cfg.FailsOn n p ∨ b.cfg.mode ≠ .simulated) → Tick.lt due taken = true →
      PoleTripped k b p n number due taken b.poles[p] [breakerRecord k (some p) .failToOpen taken (some n) true none] []
  /-- R107, R108: a parting instant that has come parts the pole at the taking, late if it is past. -/
  | parts : b.poles[p].state = .closed → ¬b.cfg.FailsOn n p → b.cfg.mode = .simulated → Tick.le due taken = true →
      PoleTripped k b p n number due taken
        { b.poles[p] with
          state := if (b.cfg.assoc[p]).isEmpty then .opened else .arcing
          pending := none, late := Tick.lt due taken, opTrip := some n }
        [] (b.partedRecords k p taken (some n) (Tick.lt due taken) none)
  /-- R107, R115: the pole goes to OPENING until its parting instant, or its deadline. -/
  | opens : b.poles[p].state = .closed → ¬b.cfg.FailsOn n p → (b.cfg.mode = .simulated → Tick.le due taken = false) →
      (b.cfg.mode ≠ .simulated → Tick.lt due taken = false) →
      PoleTripped k b p n number due taken
        { b.poles[p] with state := .opening, pending := some due, late := false, opTrip := some n } [] []
  /-- R110: a pole in CLOSING remembers the first trip that finds it so, but for one numbered at its taking to fail on it. -/
  | remembers : b.poles[p].state = .closing → b.poles[p].remembered = none → (∀ m, number = some m → ¬b.cfg.FailsOn m p) →
      PoleTripped k b p n number due taken
        { b.poles[p] with remembered := some { serial := b.serial, number := number } } [] []
  /-- R106, R110: in every other state the trip changes nothing, and R109: nor does one numbered at its taking to fail on the pole. -/
  | stays : b.poles[p].state ≠ .closed →
      (b.poles[p].state = .closing → b.poles[p].remembered ≠ none ∨ ∃ m, number = some m ∧ b.cfg.FailsOn m p) →
      PoleTripped k b p n number due taken b.poles[p] [] []

/-- An accepted close taken at `taken` by the OPEN pole `p` of breaker `k`, whose operating time ends at `due`: the pole it leaves
and the records that it brings at its taking (R111, R112, R116). -/
inductive PoleCloses (k : Fin 4) (b : Breaker) (p : Fin 3) (due taken : Tick) : Pole → List RecordBody → Prop
  /-- R112: the pole goes to CLOSING until its completion instant, or its deadline. -/
  | closes : (b.cfg.mode = .simulated → Tick.le due taken = false) → (b.cfg.mode ≠ .simulated → Tick.lt due taken = false) →
      PoleCloses k b p due taken { b.poles[p] with state := .closing, pending := some due, late := false } []
  /-- R112: a completion instant that has come completes the pole at the taking, late if it is past. -/
  | completes : b.cfg.mode = .simulated → Tick.le due taken = true →
      PoleCloses k b p due taken { b.poles[p] with state := .closed, pending := none, late := Tick.lt due taken }
        [breakerRecord k (some p) .poleClosed taken none (Tick.lt due taken) none]
  /-- R116: a deadline that is already past fails the pole at the taking. -/
  | fails : b.cfg.mode ≠ .simulated → Tick.lt due taken = true →
      PoleCloses k b p due taken { b.poles[p] with state := .opened, pending := none, late := true }
        [breakerRecord k (some p) .failToClose taken none true none]

/-- A pole holds a remembered trip in CLOSING alone (R110, R112, R116). -/
def BreakerSim.RemembersSound (bs : BreakerSim) : Prop :=
  ∀ (k : Fin 4) (p : Fin 3), bs.breakers[k].poles[p].remembered ≠ none → bs.breakers[k].poles[p].state = .closing

/-- A trip of the selected poles of breaker `k`, with its t_first at `first`, taken at `taken`, is all that happens at the breakers
between the two states, and it brings these records, BREAKER_OPEN last (R106 to R110, R117). It is counted where it finds a pole
made. BREAKER_FAULT of a pole that fails at the taking is raised (R118). That the failures are recorded before the partings is
log 26. -/
def State.TripTaken (s : State) (k : Fin 4) (sel : BitVec 3) (first taken : Tick) (brings : List RecordBody) (t : State) : Prop :=
  ∃ (n : Nat) (number : Option Nat) (fails parts : Fin 3 → List RecordBody),
    ((∃ p : Fin 3, s.bs.breakers[k].poles[p].state.made = true) ∧ n = min 65535 (s.bs.breakers[k].trips + 1) ∧ number = some n ∨
      (∀ p : Fin 3, s.bs.breakers[k].poles[p].state.made = false) ∧ n = s.bs.breakers[k].trips ∧ number = none) ∧
    (∀ j, j ≠ k → t.bs.breakers[j] = s.bs.breakers[j]) ∧
    t.bs.breakers[k] = { s.bs.breakers[k] with
      trips := n, serial := s.bs.breakers[k].serial + 1, poles := t.bs.breakers[k].poles } ∧
    (∀ p : Fin 3,
      (inSet sel p.val = false → t.bs.breakers[k].poles[p] = s.bs.breakers[k].poles[p] ∧ fails p = [] ∧ parts p = []) ∧
      (inSet sel p.val = true → PoleTripped k s.bs.breakers[k] p n number (openingInstant s.bs.breakers[k] p first) taken
        t.bs.breakers[k].poles[p] (fails p) (parts p))) ∧
    brings = (List.finRange 3).flatMap fails ++ (List.finRange 3).flatMap parts ++
      (if (List.finRange 3).flatMap parts ≠ [] ∧ ∀ p : Fin 3, t.bs.breakers[k].poles[p].state = .opened then
        [breakerRecord k none .breakerOpen taken (some n) false none] else []) ∧
    ∀ p : Fin 3, fails p ≠ [] → (∀ q, p < q → fails q = []) →
      t.Notified s.notices.routes[5] (.breakerFault k p .failToOpen (some n))

/-- An accepted close of breaker `k`, with its t_first at `first`, taken at `taken`, is all that happens at the breakers between the
two states, and it brings these records, BREAKER_CLOSED or BREAKER_OPEN last (R111, R112, R116 to R118). -/
def State.CloseTaken (s : State) (k : Fin 4) (first taken : Tick) (brings : List RecordBody) (t : State) : Prop :=
  ∃ closes : Fin 3 → List RecordBody,
    (∀ j, j ≠ k → t.bs.breakers[j] = s.bs.breakers[j]) ∧
    t.bs.breakers[k] = { s.bs.breakers[k] with
      closes := min 65535 (s.bs.breakers[k].closes + 1), poles := t.bs.breakers[k].poles } ∧
    (∀ p : Fin 3, PoleCloses k s.bs.breakers[k] p (closingInstant s.bs.breakers[k] p first) taken t.bs.breakers[k].poles[p]
      (closes p)) ∧
    brings = (List.finRange 3).flatMap closes ++
      (if ∀ p : Fin 3, t.bs.breakers[k].poles[p].state = .closed then
        [breakerRecord k none .breakerClosed taken none false none] else []) ++
      (if ∀ p : Fin 3, t.bs.breakers[k].poles[p].state = .opened then
        [breakerRecord k none .breakerOpen taken none false none] else []) ∧
    ∀ p : Fin 3, t.bs.breakers[k].poles[p].state = .opened →
      (∀ q, p < q → t.bs.breakers[k].poles[q].state ≠ .opened) →
      t.Notified s.notices.routes[5] (.breakerFault k p .failToClose none)

/-- A close of breaker `k` is refused for this reason: a pole is not OPEN, or a trip source stands at ACTIVE (R111). -/
def State.RefusesClose (s : State) (k : Fin 4) (reason : RefuseReason) : Prop :=
  polesAllOpen s.bs.breakers[k].poles = false ∧ reason = .notOpen ∨
    polesAllOpen s.bs.breakers[k].poles = true ∧ (∃ y ∈ s.bs.breakers[k].cfg.trips, s.sourceActive y.source = true) ∧
      reason = .tripActive

/-- The CLOSE_REFUSED record of breaker `k` (R111, R117). -/
def refusedRecord (k : Fin 4) (at' : Tick) (reason : RefuseReason) : RecordBody :=
  .breakerEvent { k := k, pole := none, kind := .closeRefused, at' := at', trip := none, late := false, channel := none
                  reason := some reason, feedback := none }

/-- The one trip source of breaker `k` that names the input is `x`, and no other breaker and no close source names it. -/
def BreakerSim.TripsOnly (bs : BreakerSim) (k : Fin 4) (src : Source) (x : TripSource) : Prop :=
  bs.breakers[k].cfg.trips.filter (fun y => y.source = src) = [x] ∧
    (∀ j, j ≠ k → ∀ y ∈ bs.breakers[j].cfg.trips, y.source ≠ src) ∧ ∀ j : Fin 4, src ∉ bs.breakers[j].cfg.closes

/-- One close source of breaker `k` names the input, and no other breaker and no trip source names it. -/
def BreakerSim.ClosesOnly (bs : BreakerSim) (k : Fin 4) (src : Source) : Prop :=
  bs.breakers[k].cfg.closes.filter (fun y => y = src) = [src] ∧
    (∀ j, j ≠ k → src ∉ bs.breakers[j].cfg.closes) ∧ ∀ j : Fin 4, ∀ y ∈ bs.breakers[j].cfg.trips, y.source ≠ src

/-- The poles `sel` of breaker `k` fall due together at `at'` by this row, and each publishes an event of this kind there (R107, R109,
R112, R115, R116; log 26). -/
inductive State.PolesDue (s : State) (k : Fin 4) (at' : Tick) (sel : BitVec 3) : Instr → BreakerEventKind → Prop
  | parted : s.duePoles k .opening false = some (at', sel) → s.PolesDue k at' sel (.poleParted k) .poleParted
  | closed : s.duePoles k .closing false = some (at', sel) → s.PolesDue k at' sel (.poleClosed k) .poleClosed
  | failed : s.dueFailures k = some (at', sel) → s.PolesDue k at' sel (.failToOpen k) .failToOpen
  | stillOpening : s.duePoles k .opening true = some (at', sel) → s.PolesDue k at' sel (.openingDeadline k) .failToOpen
  | stillClosing : s.duePoles k .closing true = some (at', sel) → s.PolesDue k at' sel (.failToClose k) .failToClose

/-- A RUNNING run has closed for a reason other than ESTOP: IDLE, no owner, no active slot, no exit met (R67). -/
def State.ClosedWith (t : State) (reason : CloseReason) : Prop :=
  t.sq.runState = .idle ∧ t.sq.lastClose = some reason ∧ t.sq.owner = none ∧ t.sq.active = none ∧ t.sq.pendingTr = none ∧
    t.sq.held = none ∧ t.rs.reserve = 0

/-- The run goes on as it was: its state, number, owner, options and active slot (R51). -/
def State.SameRun (s t : State) : Prop :=
  t.sq.runState = s.sq.runState ∧ t.sq.lastRun = s.sq.lastRun ∧ t.sq.owner = s.sq.owner ∧ t.sq.options = s.sq.options ∧
    t.sq.active = s.sq.active ∧ t.sq.entryBoundary = s.sq.entryBoundary ∧ t.sq.count = s.sq.count

/-- No measurement takes an event, and no trigger makes a proposal: an event brings no record but its own (R124, R166). -/
def State.Quiet (s : State) : Prop :=
  (∀ m : Fin 32, s.mu.meas[m].live ≠ .waitingStart ∧ s.mu.meas[m].live ≠ .timing) ∧ ∀ tr ∈ s.triggers, tr.mode = .alone

/-- Trigger `i` of the active state is the lowest whose condition is `c`, and it is `tr` (R40, R63). -/
def State.Lowest (s : State) (c : Cond) (i : Nat) (tr : Trigger) : Prop :=
  s.triggers[i]? = some tr ∧ tr.cond = c ∧ ∀ j < i, ∀ x, s.triggers[j]? = some x → x.cond ≠ c

/-- No exit of the active state is met and the run is not held: an exit met now moves it (R61, R64). -/
def State.MayExit (s : State) : Prop := s.sq.pendingTr = none ∧ s.sq.heldDue = none ∧ s.pr.holds = false

/-- This part is the proposer of `target` in `mode`, with the number that was next (R166). -/
def State.Proposes (s : State) (target : Option (Fin 64)) (mode : PeerMode) (t : State) : Prop :=
  t.pr.proposal.role = .proposer ∧
    t.pr.proposal.prop = some { proposer := s.pr.node, number := s.pr.nextNumber, target := target, mode := mode } ∧
    t.pr.nextNumber = s.pr.nextNumber + 1

/-- What no entry, close or breaker touches is as before (R3, R46, R180). -/
def State.SameBase (s t : State) : Prop :=
  t.tb = s.tb ∧ t.st = s.st ∧ t.ports = s.ports ∧ t.pins = s.pins ∧ t.pending = s.pending

/-- The newest reply of port `p`, and no other change of the ports (R180, R181). -/
def State.Answered (s : State) (p : Port) (tag : Byte) (code : ResultCode) (body : ReplyBody) (t : State) : Prop :=
  t.ports = (s.replied p tag code body).ports

/-- The time base after an accepted mark of error `e`, not yet dealt with: it renews the watch (R7). -/
def TimeBase.marked (tb : TimeBase) (e : Int) : TimeBase :=
  { tb with mark := some (tb.et, e), watch := some tb.et, absent := false }

/-- The trim brought to `t - 2e` within its range, the correction counter restarted (R9, R10). -/
def TimeBase.trimmed (tb : TimeBase) (e : Int) : TimeBase :=
  { tb with trim := max (-2000) (min 2000 (tb.trim - 2 * e)), corr := 0 }

/-- The TIME_EVENT record of a change of discipline state, made at device time `dev` with the flag TIME SUSPECT as it stands, with
the error of the mark that caused it, if one did (R16). -/
def stateRecord (before after : Discipline) (suspect : Bool) (e : Option Int) (dev : Nat) : RecordBody :=
  .timeEvent { cause := .state, before := before, after := after, tq := ⟨after, suspect⟩, e := e, dev := dev, seconds := none }

/-- The time base in ACQUIRE as a mark of ACQUIRE, or one that enters it from FREE or, outside a run, from HOLDOVER, finds it, with
the STATE record of the entering (R9, R11). That no good mark is counted on entering is log 15. -/
def TimeBase.AcquiresAt (tb : TimeBase) (dev : Nat) (running : Bool) (e : Int) (found : TimeBase)
    (records : List RecordBody) : Prop :=
  tb.disc = .acquire ∧ found = tb ∧ records = [] ∨
    (tb.disc = .free ∨ tb.disc = .holdover ∧ running = false) ∧
      found = { tb with disc := .acquire, holdover := none, good := 0 } ∧
      records = [stateRecord tb.disc .acquire tb.suspect (some e) dev]

/-- An accepted mark of error `e` dealt with at device time `dev`: the time base it leaves and the TIME_EVENT records it commits, in
their order (R9 to R11, R16). -/
inductive MarkDealt (tb : TimeBase) (dev : Nat) (running : Bool) (e : Int) : TimeBase → List RecordBody → Prop
  /-- R10: LOCKED stays, the trim follows. -/
  | adjusts : tb.disc = .locked → e.natAbs ≤ 20 → MarkDealt tb dev running e (tb.trimmed e) []
  /-- R10: a large error leaves LOCKED for ACQUIRE outside a run. -/
  | leaves : tb.disc = .locked → 20 < e.natAbs → running = false →
      MarkDealt tb dev running e { tb with disc := .acquire, holdover := none, good := 0 }
        [stateRecord .locked .acquire tb.suspect (some e) dev]
  /-- R10: in a run it leaves LOCKED for HOLDOVER, whose timer starts. -/
  | doubts : tb.disc = .locked → 20 < e.natAbs → running = true →
      MarkDealt tb dev running e { tb with disc := .holdover, holdover := some tb.et }
        [stateRecord .locked .holdover tb.suspect (some e) dev]
  /-- R11: HOLDOVER in a run only takes note of the mark. -/
  | notes : tb.disc = .holdover → running = true → MarkDealt tb dev running e tb []
  /-- R9: a small error adjusts the trim and counts. -/
  | counts (found : TimeBase) (records : List RecordBody) : tb.AcquiresAt dev running e found records → e.natAbs ≤ 50 →
      found.good + 1 < 4 →
      MarkDealt tb dev running e { found.trimmed e with good := found.good + 1, stepHeld := false } records
  /-- R9: the fourth good mark brings LOCKED. -/
  | locks (found : TimeBase) (records : List RecordBody) : tb.AcquiresAt dev running e found records → e.natAbs ≤ 50 →
      4 ≤ found.good + 1 →
      MarkDealt tb dev running e
        { found.trimmed e with disc := .locked, holdover := none, good := found.good + 1, stepHeld := false }
        (records ++ [stateRecord .acquire .locked tb.suspect (some e) dev])
  /-- R9: a large error in a run holds the step. -/
  | holds (found : TimeBase) (records : List RecordBody) : tb.AcquiresAt dev running e found records → 50 < e.natAbs →
      running = true → MarkDealt tb dev running e { found with good := 0, stepHeld := true } records
  /-- R9: outside a run it changes the offset by -e. -/
  | steps (found : TimeBase) (records : List RecordBody) (offset now : Nat) :
      tb.AcquiresAt dev running e found records → 50 < e.natAbs → running = false →
      (offset : Int) = ((tb.offset : Int) - e) % 4294967296000000 → (now : Int) = ((dev : Int) - e) % 4294967296000000 →
      MarkDealt tb dev running e { found with offset := offset, good := 0, suspect := true, stepHeld := false }
        (records ++ [.timeEvent { cause := .step, before := .acquire, after := .acquire, tq := ⟨.acquire, true⟩, e := some e
                                  dev := now, seconds := none }])

/-- The relabel at an accepted mark of error `e` that has been dealt with, where `named` is the seconds value that names its whole
second and `present` the seconds which that had at the mark (R15). -/
inductive Relabelled (tb : TimeBase) (running : Bool) (e : Int) (present : Nat) :
    Option Nat → TimeBase → List RecordBody → Prop
  /-- Nothing names the second, or a run holds the relabel. -/
  | stays (named : Option Nat) : named = none ∨ running = true → Relabelled tb running e present named tb []
  /-- The value is already right. -/
  | right : running = false → Relabelled tb running e present (some present) { tb with label := none } []
  /-- The offset moves by whole seconds, with a LABEL record. -/
  | moves (n offset : Nat) : running = false → n ≠ present →
      (offset : Int) = ((tb.offset : Int) + ((n : Int) - present) * 1000000) % 4294967296000000 →
      Relabelled tb running e present (some n) { tb with label := none, offset := offset }
        [.timeEvent { cause := .label, before := tb.disc, after := tb.disc, tq := ⟨tb.disc, tb.suspect⟩, e := some e
                      dev := (tb.et.toNat + offset) % 4294967296000000, seconds := some (present, n) }]

/-- The IMPAIRMENT record of TIME_QUALITY, where the change from `s` to `t` leaves LOCKED in a RUNNING run armed with require-lock
and opens its interval (R72). It stands after TB's own records: log 75. -/
def State.qualityLost (s t : State) : List RecordBody :=
  if s.tb.disc = .locked ∧ t.tb.disc ≠ .locked ∧ s.running = true ∧ s.requireLock = true ∧
      openInterval s.sq.impairments .timeQuality none = false ∧ s.sq.impairments.length < 32 then
    [.impairment .timeQuality none s.stamp]
  else []

/-- A joint run is ARMED: what moves its AT_TIME start into the past makes a proposal, with a record of its own (R57, R58). -/
def State.mayPropose (s : State) : Prop := s.sq.runState = .armed ∧ s.joint ≠ 0

/-- `t` is `s` after an accepted mark of error `e`, `named` naming its whole second: dealt with, then relabelled, with the records
of both in order and SQ's after them; each change of discipline state and each step shows in TIME_STATE (R7 to R11, R15, R16,
R72). -/
def State.MarkTaken (s : State) (e : Int) (named : Option Nat) (t : State) : Prop :=
  (∃ (tb : TimeBase) (present : Nat) (dealt label : List RecordBody),
    MarkDealt (s.tb.marked e) s.dev s.running e tb dealt ∧
    (present : Int) = ((s.dev : Int) - e) % 4294967296000000 / 1000000 ∧
    Relabelled tb s.running e present named t.tb label ∧
    (¬s.mayPropose → s.RecordedAll (dealt ++ label ++ s.qualityLost t) t) ∧
    (dealt ≠ [] → t.Notified s.notices.routes[6] (.timeState t.tb.disc t.tb.suspect t.tb.absent))) ∧
  s.SameRun t ∧ t.biu = s.biu ∧ t.st = s.st ∧ t.ws = s.ws ∧ t.bs = s.bs ∧ t.mu = s.mu ∧ t.ports = s.ports ∧
    t.pins = s.pins ∧ t.pending = s.pending

/-- A channel after a frame of uncut sample `u` and sample `y`, its DC term in the frame being `d`: gain and offset applied and
the result brought into 20 bits, the DC term decayed, the accumulator turned (R85 to R88). -/
def Channel.framed (x : Channel) (u y d : Int) : Channel :=
  { x with
    dc := Int.tdiv (d * x.kq) 16777216
    sLast := y
    uncutLast := u
    outLast := max (-524287) (min 524287 (roundDiv (y * (1000000 + x.gain)) 1000000 + x.offset))
    saturated := decide (roundDiv (y * (1000000 + x.gain)) 1000000 + x.offset < -524287 ∨
      524287 < roundDiv (y * (1000000 + x.gain)) 1000000 + x.offset)
    acc := x.acc + x.inc }

/-- The AC term of a channel's frame: A cos(P + φ) (R85). -/
def Channel.wave (x : Channel) : Int := roundDiv (x.amp * cosTable ((x.acc + x.phi).toNat / 4096)) 4194304

/-! ### A state record as the fields that give it (R36 to R41) -/

def Setpoint.asArg (p : Setpoint) : SetpointArg := { mag := p.mag, angle := p.angle, freq := p.freq, tau := p.tau }

def Cond.asArg : Cond → CondArg
  | .input i l => .input i.val l.code
  | .remoteInput n i l => .remoteInput n.val i.val l.code
  | .breaker k b => .breaker k.val b.code
  | .peer => .peer
  | .advance => .advance
  | .rampDone => .rampDone

def Trigger.asArg (t : Trigger) : TriggerArg := { cond := t.cond.asArg, target := t.target.val, mode := t.mode.code }

def RampSpec.asArg (r : RampSpec) : RampArg :=
  { mask := r.mask.toNat, quantity := r.quantity.code, delta := r.delta, dwell := r.dwell, maxSteps := r.maxSteps }

def LiveBody.asArg (b : LiveBody) (kind : Nat) (ramp : Option RampArg) : RecordArg :=
  { kind := kind
    setpoints := some (b.setpoints.map Setpoint.asArg)
    anchor := some b.anchor.toNat
    pattern := some b.pattern.toNat
    actions := some (b.actions.map EntryAction.code)
    limit := b.limit.map (fun l => (l.1, l.2.val))
    triggers := b.triggers.map Trigger.asArg
    ramp := ramp }

/-- The fields of WRITE STATE that give a record: STEADY is kind 0, RAMP 1, END 2 and nothing else (R35, R36, R189). -/
def StateRecord.asArg : StateRecord → RecordArg
  | .steady b => b.asArg 0 none
  | .ramp b r => b.asArg 1 (some r.asArg)
  | .endState =>
    { kind := 2, setpoints := none, anchor := none, pattern := none, actions := none, limit := none, triggers := []
      ramp := none }

/-! ### A breaker configuration and a measurement definition as the fields that give them (R102, R123) -/

def Source.asArg : Source → SourceArg
  | .localInput i => .localInput i.val
  | .remoteInput n i => .remoteInput n.val i.val

def BreakerMode.asArg : BreakerMode → ModeArg
  | .simulated => .simulated
  | .feedback i => .feedback i.val

/-- The fields give breaker `k` the configuration `c` and the aux outputs: of a trip source the selection ALL is all three poles,
and A, B and C one each. -/
def BreakerConfig.GivenBy (c : BreakerConfig) (a : BreakerArgs) (k : Fin 4) (oa ob : Option (Fin 8)) : Prop :=
  k.val = a.breaker ∧
    c.trips.map (fun t => t.source.asArg) = a.trips.map Prod.fst ∧ (∀ x ∈ a.trips, x.2 ≤ 3) ∧
    c.trips.map TripSource.poles =
      a.trips.map (fun x => if x.2 = 0 then 7 else if x.2 = 1 then 1 else if x.2 = 2 then 2 else 4) ∧
    c.closes.map Source.asArg = a.closes ∧ c.opening = a.opening ∧ c.closing = a.closing ∧ c.scatter = a.scatter ∧
    c.mode.asArg = a.mode ∧ c.fail.map (fun f => (f.1, f.2.toNat)) = a.fail ∧
    oa.map Fin.val = a.out52a ∧ ob.map Fin.val = a.out52b ∧ c.assoc.map (fun l => l.map Fin.val) = a.assoc ∧
    c.shared.toNat = a.shared

/-- The start condition as ARM gives it: AT_TIME in seconds and microseconds (R53). -/
def StartCond.asArg : StartCond → StartArg
  | .command => .command
  | .atTime dev => .atTime (dev / 1000000) (dev % 1000000)
  | .input i l => .input i.val l.code
  | .peer => .peer

/-- The fields of an ARM that gives these options (R53). -/
def RunOptions.asArgs (o : RunOptions) : ArmArgs where
  first := o.first.val
  start := o.start.asArg
  nominal := o.nominal
  lock := o.requireLock.toNat
  joint := o.joint
  positions := o.positions.map Bool.toNat
  mask := o.mask

/-- The third check of ARM passes: the numbers lie in their ranges, an AT_TIME instant is later than device time + 1,000 µs, a PEER
start carries a joint id, and the mask names defined measurements only (R53). -/
def State.AdmitsRun (s : State) (o : RunOptions) : Prop :=
  (5000 ≤ o.nominal ∧ o.nominal ≤ 1000000) ∧ o.joint ≤ 65535 ∧
    (∀ d, o.start = .atTime d → d < 4294967296000000 ∧ s.dev + 1000 < d) ∧ (o.start = .peer → o.joint ≠ 0) ∧
    ∀ m : Fin 32, inSet o.mask m.val = true → s.mu.meas[m].definition ≠ none

def MuEvent.asArg : MuEvent → RefArg
  | .stateEntry k => .stateEntry k.val
  | .inputLocal i l => .inputLocal i.val l.code
  | .inputRemote n i l => .inputRemote n.val i.val l.code
  | .breaker k e => .breaker k.val e.code

def StartRef.asArg : StartRef → StartRefArg
  | .runStart => .runStart
  | .onEvent e n => .onEvent e.asArg n

/-- The fields that give measurement `m` a definition and hold no more than its kind uses. -/
def MeasDef.asArgs (d : MeasDef) (m : Fin 32) : MeasArgs where
  index := m.val
  kind := match d.kind with
    | .time _ _ _ => 0
    | .value _ _ _ _ _ => 1
    | .noOperate _ => 2
  start := some d.start.asArg
  stop := some (.onEvent d.stop.asArg)
  time := match d.kind with
    | .time n t _ => some (n, t)
    | _ => none
  value := match d.kind with
    | .value c q v t _ => some (c.val, q.code, v, t)
    | _ => none
  rel := match d.kind with
    | .time _ _ r => some r
    | .value _ _ _ _ r => some r
    | .noOperate _ => none
  window := match d.kind with
    | .noOperate w => some w
    | _ => none
  notify := d.notify.toNat

/-- The fields hold all that the definition's kind uses; the others may be present too. -/
def MeasDef.GivenBy (d : MeasDef) (a : MeasArgs) : Prop :=
  a.kind = (d.asArgs 0).kind ∧ a.start = some d.start.asArg ∧ a.stop = some (.onEvent d.stop.asArg) ∧
    ((d.asArgs 0).time.isSome = true → a.time = (d.asArgs 0).time) ∧
    ((d.asArgs 0).value.isSome = true → a.value = (d.asArgs 0).value) ∧
    ((d.asArgs 0).rel.isSome = true → a.rel = (d.asArgs 0).rel) ∧
    ((d.asArgs 0).window.isSome = true → a.window = (d.asArgs 0).window) ∧ a.notify = d.notify.toNat

/-- The definition names the event as its start or its stop reference (R124). -/
def MeasDef.Names (d : MeasDef) (e : MuEvent) : Prop := d.stop = e ∨ ∃ n, d.start = .onEvent e n

/-- The interval is relevant to the measurement (R133). -/
def MeasDef.Concerns (d : MeasDef) (i : Interval) : Prop :=
  match i.kind with
  | .chatter => ∃ (j : Fin 16) (l : Level), d.Names (.inputLocal j l) ∧ i.subject = some j.val
  | .ringLoss => ∃ (n : Fin 4) (j : Fin 16) (l : Level), d.Names (.inputRemote n j l)
  | .remoteTime => ∃ (n : Fin 4) (j : Fin 16) (l : Level), d.Names (.inputRemote n j l) ∧ i.subject = some n.val
  | _ => True

/-- The interval is relevant to the measurement and overlaps the judged interval `lo`..`hi`, both ends included (R133, R134). -/
def MeasDef.VoidedBy (d : MeasDef) (i : Interval) (lo hi : Tick) : Prop :=
  d.Concerns i ∧ Tick.le i.start hi = true ∧ ∀ t, i.stop = some t → Tick.le lo t = true

/-- The measurement is TIMING and its stop reads a value (R128, R131). -/
def Measurement.Reads (x : Measurement) (d : MeasDef) : Prop :=
  x.live = .timing ∧ x.definition = some d ∧ ∃ c q v t r, d.kind = .value c q v t r

/-- At the present instant an event of reference instant `ref` waits at MU for the entries and steps of a frame boundary, as one
before it does, or since it stops a VALUE measurement at or after that boundary (R130; log 72). -/
def State.EventWaits (s : State) (e : MuEvent) (ref : Tick) : Prop :=
  ∃ b, s.boundaryNow = some b ∧ (s.mu.waiting ≠ [] ∨
    Tick.le b ref = true ∧ ∃ (j : Fin 32) (d : MeasDef), s.mu.meas[j].Reads d ∧ d.stop = e)

/-- At the present instant the breaker events that another event brings do not wait at MU: no boundary has still to be given, or none
waits there and no VALUE measurement that is TIMING, or that a breaker event may start, stops on one (R130; log 72). -/
def State.BreakersPass (s : State) : Prop :=
  ∀ b, s.boundaryNow = some b → s.mu.waiting = [] ∧ ∀ (j : Fin 32) (d : MeasDef) (k : Fin 4) (e : BreakerEventKind),
    s.mu.meas[j].definition = some d → (∃ c q v t r, d.kind = .value c q v t r) →
    (s.mu.meas[j].live = .timing ∨ s.mu.meas[j].live = .waitingStart ∧ ∃ x y n, d.start = .onEvent (.breaker x y) n) →
    d.stop ≠ .breaker k e

/-- Nor does the event `e` of reference instant `ref` itself: no VALUE measurement that is TIMING stops on it at or after a boundary
that has still to be given (R130; log 72). -/
def State.EventPasses (s : State) (e : MuEvent) (ref : Tick) : Prop :=
  s.BreakersPass ∧ ∀ b, s.boundaryNow = some b → Tick.le b ref = true → ∀ (j : Fin 32) (d : MeasDef),
    (s.mu.meas[j].Reads d ∨ s.mu.meas[j].live = .waitingStart ∧ s.mu.meas[j].definition = some d ∧
      ∃ x y n, d.start = .onEvent (.breaker x y) n) → d.stop ≠ e

/-- What a stop at `ref` makes of the measurement `x`, TIMING since `a`, if it reads a value: the value in force at `ref`, LOW, HIGH
or PASS by its band, or VOID where a relevant impairment overlaps; VOID by HISTORY where that value is unknown (R130, R131, R134,
R136). -/
def State.ValueRead (s : State) (d : MeasDef) (a ref : Tick) (poor : Bool) (x y : Measurement) : Prop :=
  ∀ ch q expected tol rel, d.kind = .value ch q expected tol rel →
    ∀ (deciding : Option Deciding) (ends : MeasOutcome → Option Int → Option Deciding → Measurement),
      deciding = (if Tick.le a ref then s.decidingKind d (poor || x.startPoor) a ref
        else s.decidingKind d (poor || x.startPoor) ref a) →
      (∀ o v k, ends o v k = { x with
        live := .done, stop := some ref
        result := some { run := s.sq.lastRun, outcome := if k.isSome then .voided else o, value := v, band := d.kind.band
                         start := some a, stop := some ref, determined := s.tb.et, tq := ⟨s.tb.disc, s.tb.suspect⟩
                         deciding := k } }) →
      (valueAt x.history x.truncated ref = none → y = ends .voided none (some .history)) ∧
      ∀ (v dev : Int) (band : Nat), valueAt x.history x.truncated ref = some v →
        dev = deviation q v expected → band = max tol (expected.natAbs * rel / 1000) →
        y = ends (if dev < -(band : Int) then .low else if (band : Int) < dev then .high else .pass) (some v) deciding

/-- The window expiry instant that a start at `ref` gives: of NO_OPERATE alone (R126). -/
def MeasDef.expiryFrom (d : MeasDef) (ref : Tick) : Option Tick :=
  match d.kind with
  | .noOperate w => some (ref + BitVec.ofNat 48 w)
  | _ => none

/-- What `times` events `e` of one reference instant make of a measurement that waits for its start: they are counted, and the one
that brings its occurrence starts it (R126, R127). -/
def MeasDef.Counts (d : MeasDef) (e : MuEvent) (ref : Tick) (poor : Bool) (times : Nat) (x y : Measurement) : Prop :=
  ∀ n, x.live = .waitingStart → d.start = .onEvent e n →
    y = if x.occ < n ∧ n ≤ x.occ + times then
        { x with occ := n, live := .timing, start := some ref, startPoor := poor, expiry := d.expiryFrom ref }
      else { x with occ := x.occ + times }

/-- What the event `e` makes of the measurement `x`, TIMING, that stops on it: TIME with the time between the two, EARLY, LATE
or PASS by its band; VALUE with the value read; NO_OPERATE, within its window, UNEXPECTED; each VOID where a relevant impairment
overlaps (R128, R130 to R132, R134, R136). -/
def State.Stops (s : State) (d : MeasDef) (e : MuEvent) (ref : Tick) (poor : Bool) (x y : Measurement) : Prop :=
  ∀ a, x.live = .timing → x.start = some a → d.stop = e →
    s.ValueRead d a ref poor x y ∧
    ∀ (elapsed : Int) (deciding : Option Deciding) (ends : MeasOutcome → Option Int → Option Deciding → Measurement),
      elapsed = (ref - a).toInt →
      deciding = (if Tick.le a ref then s.decidingKind d (poor || x.startPoor) a ref
        else s.decidingKind d (poor || x.startPoor) ref a) →
      (∀ o v k, ends o v k = { x with
        live := .done, stop := some ref
        result := some { run := s.sq.lastRun, outcome := if k.isSome then .voided else o, value := v, band := d.kind.band
                         start := some a, stop := some ref, determined := s.tb.et, tq := ⟨s.tb.disc, s.tb.suspect⟩
                         deciding := k } }) →
      (∀ nominal tol rel, d.kind = .time nominal tol rel → ∀ band : Nat, band = max tol (nominal * rel / 1000) →
        y = ends (if elapsed - nominal < -(band : Int) then .early
          else if (band : Int) < elapsed - nominal then .late else .pass) (some elapsed) deciding) ∧
      ∀ w z, d.kind = .noOperate w → x.expiry = some z → Tick.le ref z = true →
        y = ends .unexpected (some elapsed) deciding

/-- A definition in the ranges of R123. -/
def MeasDef.Sound (d : MeasDef) : Prop :=
  (∀ e n, d.start = .onEvent e n → 1 ≤ n ∧ n ≤ 255) ∧
    match d.kind with
    | .time n t r => n ≤ 600000000 ∧ t ≤ 600000000 ∧ r ≤ 1000
    | .value _ q v t r => r ≤ 1000 ∧ (match q with
      | .magnitude => 0 ≤ v ∧ v ≤ 320000 ∧ t ≤ 320000
      | .angle => -18000 ≤ v ∧ v ≤ 17999 ∧ t ≤ 18000
      | .frequency => 5000 ≤ v ∧ v ≤ 1000000 ∧ t ≤ 995000)
    | .noOperate w => 1000 ≤ w ∧ w ≤ 600000000

/-! ### Messages -/

/-- A message whose every field fits the bytes of its type and holds a code that has a meaning (R192). -/
def MsgBody.Carries : MsgBody → Prop
  | .beacon b => b.dev < devModulus ∧ b.joint < 65536
  | .propose j _ t m => j < 65536 ∧ m ≠ .alone ∧ (t = none → m = .preempt)
  | .accept j _ _ => j < 65536
  | .decline j _ _ => j < 65536
  | .commit j _ tc => j < 65536 ∧ tc < devModulus
  | .withdraw j _ => j < 65536
  | .event _ dev _ => dev < devModulus
  | .abort j _ => j < 65536
  | .undefined _ _ => False

/-- A message that arrives at `s` from another node, with the ring enabled and light present (R159, R193). -/
def State.Arrives (s : State) (m : Message) : Prop :=
  s.pins.resetN = true ∧ s.pr.enable = true ∧ s.pins.light = true ∧ m.orig ≠ s.pr.node ∧ (1 ≤ m.hop ∧ m.hop ≤ 3) ∧
    m.body.Carries

/-- Node `n` is a member whose last beacon, for this part the last it sent, shows PPS and LOCKED (R163; log 35). -/
def Ring.Serves (r : Ring) (n : Fin 4) : Prop :=
  inSet r.memberSet n.val = true ∧
    ∃ b : Beacon, (n = r.node ∧ r.own = some b ∨ n ≠ r.node ∧ ∃ x, r.members[n] = some x ∧ x.beacon = b) ∧
      b.source = .pps ∧ b.tq.disc = .locked

/-- The time source to take while UP: the lowest node that serves, or the lowest member where none does (R163). -/
def Ring.Chosen (r : Ring) (n : Fin 4) : Prop :=
  r.Serves n ∧ (∀ k < n, ¬r.Serves k) ∨
    (∀ k, ¬r.Serves k) ∧ inSet r.memberSet n.val = true ∧ ∀ k < n, inSet r.memberSet k.val = false

/-- A run held by no proposal: it has none, or defers one of node `n` or of a higher one (R167, R172; log 21). -/
def State.Answers (s : State) (n : Fin 4) : Prop :=
  s.pr.proposal = ProposalState.idle ∨
    s.pr.proposal.role = .deferred ∧ s.pr.proposal.tc = none ∧ ∃ own, s.pr.proposal.prop = some own ∧ n ≤ own.proposer

/-! ### The ports (R180, R183) -/

/-- A queue of at most 4 replies; the overrun mark stands exactly while frames are counted as lost (R180). -/
def Transport.Sound (t : Transport) : Prop :=
  t.queue.length ≤ 4 ∧ t.lost ≤ 255 ∧ (t.overrun = true ↔ 0 < t.lost)

/-- Each place of the set holds its own kind, raised 1 to 255 times (R182). -/
def Notices.Sound (n : Notices) : Prop :=
  ∀ k : Fin 11, ∀ e, n.entries[k] = some e → e.detail.kind.index = k ∧ 1 ≤ e.count ∧ e.count ≤ 255

/-- The attention line is asserted exactly while the set holds an entry, and released in reset (R183). -/
def State.LinesSound (s : State) : Prop :=
  ∀ p : Port, (s.notices.get p).attn = (s.pins.resetN && (s.notices.get p).any)

def State.PortsSound (s : State) : Prop :=
  ∀ p : Port, (s.port p).Sound ∧ (s.notices.get p).Sound

/-! ### The report store (R144) -/

/-- The records end just below the next sequence number and are numbered consecutively, modulo 2^32 (R144). -/
def Store.Numbered (rs : Store) : Prop :=
  rs.records.map Record.seq =
    (List.range rs.records.length).map (fun i => rs.nextSeq - BitVec.ofNat 32 (rs.records.length - i))

/-- The cursor of a subscribed reader lies between the number of the oldest record held and the next sequence number, both included
(R146). -/
def Store.CursorsSound (rs : Store) : Prop :=
  ∀ p : Port, (rs.reader p).subscribed = true → ((rs.reader p).cursor - rs.oldest).toNat ≤ rs.records.length

/-- The bytes of essential records that the run in progress may still commit: RUN_OPEN 48 before its start, 24 for each interval
that has room in the list and for a TRAP, RUN_CLOSE 64, and 40 for each measurement that waits or times (R53, R143, R149). -/
def State.reserveDue (s : State) : Nat :=
  let live := ((List.finRange 32).filter (fun m => decide (s.mu.meas[m].live = .waitingStart ∨ s.mu.meas[m].live = .timing))).length
  match s.sq.runState with
  | .armed => 136 + 24 * (32 - s.sq.impairments.length) + 40 * live
  | .running => 88 + 24 * (32 - s.sq.impairments.length) + 40 * live
  | .idle => 0
  | .inhibited => 0

/-- The records held and the reserve fit the store memory, the reserve covers what the run may still commit, and it is 0 while no
run exists (R142, R147 to R149). -/
def State.SpaceSound (s : State) : Prop :=
  totalLength s.rs.records + s.rs.reserve ≤ 65536 ∧ s.reserveDue ≤ s.rs.reserve ∧
    (s.sq.runState = .idle ∨ s.sq.runState = .inhibited → s.rs.reserve = 0)

/-- The low-space state stands exactly while the available space is below 4,096 (R150, R157). -/
def Store.LowSound (rs : Store) : Prop := rs.low = decide (rs.available < 4096)

/-- Every subscribed reader has passed the record: its number comes before that reader's cursor, counted from the oldest held (R144,
R146). -/
def Store.Passed (rs : Store) (r : Record) : Prop :=
  ∀ p : Port, (rs.reader p).subscribed = true → (r.seq - rs.oldest).toNat < ((rs.reader p).cursor - rs.oldest).toNat

/-- The unused space less the reserve once the `gone` oldest records have left (R147, R148). -/
def Store.roomWithout (rs : Store) (gone : Nat) : Nat := 65536 - totalLength (rs.records.drop gone) - rs.reserve

/-- Without its `gone` oldest records, each passed by every subscribed reader, the store has room for `n` bytes outside the reserve
(R148). -/
def Store.RoomAfter (rs : Store) (n gone : Nat) : Prop :=
  gone ≤ rs.records.length ∧ (∀ r ∈ rs.records.take gone, rs.Passed r) ∧ n ≤ rs.roomWithout gone

/-- The notice is raised once on port `q` between the two boards: a new entry with count 1, or the detail replaced and the count
raised by 1 up to 255 (R182). -/
def NoticeBoard.Raises (before : NoticeBoard) (q : Port) (d : Detail) (after : NoticeBoard) : Prop :=
  (after.get q).entries[d.kind.index] = some
    { detail := d
      count := match (before.get q).entries[d.kind.index] with
        | none => 1
        | some e => min 255 (e.count + 1) }

/-- The low-space state of `t` follows its available space, and SPACE_LOW with cause FALL is raised, on the ports that its route
names, where it fell from `s`; elsewhere the entry of SPACE_LOW stays as it was (R150). -/
def State.SpaceTold (s t : State) : Prop :=
  t.rs.LowSound ∧ t.notices.routes = s.notices.routes ∧ ∀ q : Port,
    (s.rs.low = false ∧ t.rs.available < 4096 ∧ s.notices.routes[8].Names q →
      s.notices.Raises q (.spaceLow false t.rs.available t.rs.runDropped) t.notices) ∧
    (¬(s.rs.low = false ∧ t.rs.available < 4096 ∧ s.notices.routes[8].Names q) →
      (t.notices.get q).entries[8] = (s.notices.get q).entries[8])

/-- The record of `body` has joined the store at its newest end with the next sequence number, the `gone` oldest have left, and
REPORT_READY is raised on the port of each subscribed reader (R144, R148 to R151). -/
def State.Commits (s : State) (body : RecordBody) (gone reserve : Nat) (t : State) : Prop :=
  t.rs = { s.rs with
    records := s.rs.records.drop gone ++ [{ seq := s.rs.nextSeq, run := s.runNumber, body := body }]
    nextSeq := s.rs.nextSeq + 1, reserve := reserve, low := t.rs.low } ∧
  s.SpaceTold t ∧ ∀ q : Port,
    ((s.rs.reader q).subscribed = true → s.notices.Raises q (.reportReady s.rs.nextSeq) t.notices) ∧
    ((s.rs.reader q).subscribed = false → (t.notices.get q).entries[9] = (s.notices.get q).entries[9])

/-! ### The run (R51 to R71) -/

/-- What the run record holds in each run state (R51, R54, R55, R59, R67). -/
def Sequencer.Sound (sq : Sequencer) : Prop :=
  match sq.runState with
  | .idle => sq.owner = none ∧ sq.active = none ∧ sq.pendingTr = none ∧ sq.held = none ∧ sq.startPending = none
  | .inhibited => sq.owner = none ∧ sq.active = none ∧ sq.pendingTr = none ∧ sq.held = none ∧ sq.startPending = none
  | .armed => sq.owner.isSome ∧ sq.options.isSome ∧ sq.active = none ∧ sq.pendingTr = none ∧ sq.held = none
  | .running => sq.owner.isSome ∧ sq.options.isSome ∧ sq.active.isSome ∧ sq.entryBoundary.isSome ∧ sq.startPending = none

/-- At most 32 intervals, and at most one open interval of each kind and subject (R71). -/
def Sequencer.ListSound (sq : Sequencer) : Prop :=
  sq.impairments.length ≤ 32 ∧
    (sq.impairments.filter (fun i => i.stop.isNone)).Pairwise (fun i j => i.kind ≠ j.kind ∨ i.subject ≠ j.subject)

/-- The stream enable is clear exactly while the part is INHIBITED (R69, R70). -/
def Sequencer.EnableSound (sq : Sequencer) : Prop := sq.streamEnable = (sq.runState != .inhibited)

/-! ### The time base (R2, R3, R6, R9, R12, R14) -/

def TimeBase.Sound (tb : TimeBase) : Prop :=
  (-2000 ≤ tb.trim ∧ tb.trim ≤ 2000) ∧ tb.offset < devModulus ∧ tb.good ≤ 4 ∧
    (tb.disc = .acquire → tb.good ≤ 3) ∧
    (tb.source = .noSource → tb.disc = .free) ∧ (tb.holdover.isSome ↔ tb.disc = .holdover) ∧
    (tb.label.isSome → tb.source = .pps)

/-! ### Outputs (R31, R32, R187) -/

/-- Every output stands at the level its function gives, and is inactive in reset. -/
def State.OutputsSound (s : State) : Prop := s.biu.driven = if s.pins.resetN then s.outputLevels else 0

/-! ### The state table (R37, R39 to R41, R44) -/

def Setpoint.Sound (c : Fin 10) (p : Setpoint) : Prop :=
  p.mag ≤ hardwareMax c ∧ (-18000 ≤ p.angle ∧ p.angle ≤ 17999) ∧ (5000 ≤ p.freq ∧ p.freq ≤ 1000000) ∧
    ∀ t, p.tau = some t → 1 ≤ t ∧ t ≤ 5000

def LiveBody.Sound (b : LiveBody) : Prop :=
  (∀ c : Fin 10, b.setpoints[c].Sound c) ∧
    (∀ l, b.limit = some l → 1000 ≤ l.1 ∧ l.1 ≤ 600000000 ∧ l.1 % 100 = 0) ∧ b.triggers.length ≤ 3

def RampSpec.Sound (r : RampSpec) : Prop :=
  r.mask ≠ 0 ∧ deltaInRange r.quantity r.delta = true ∧ (1000 ≤ r.dwell ∧ r.dwell ≤ 10000000 ∧ r.dwell % 100 = 0) ∧
    (1 ≤ r.maxSteps ∧ r.maxSteps ≤ 1000)

def StateRecord.Sound : StateRecord → Prop
  | .steady b => b.Sound
  | .ramp b r => b.Sound ∧ r.Sound
  | .endState => True

/-- PEER stands with mode LOCAL alone, and RAMP_DONE in a RAMP record alone (R40, R43). -/
def StateRecord.Admitted (r : StateRecord) : Prop :=
  ∀ b, r.live = some b → ∀ tr ∈ b.triggers,
    (tr.cond = .peer → tr.mode = .alone) ∧ (tr.cond = .rampDone → ∃ b' x, r = .ramp b' x)

def StateTable.Sound (t : StateTable) : Prop := ∀ k : Fin 64, ∀ r, t.slots[k] = some r → r.Sound ∧ r.Admitted

/-! ### Channels and frames (R76, R79, R87) -/

/-- What the sample link can carry of a channel: an out value of 20 bits and calibrations in range. -/
def Channel.Sound (c : Fin 10) (x : Channel) : Prop :=
  (-524287 ≤ x.outLast ∧ x.outLast ≤ 524287) ∧ (∀ m, x.decl.maximum = some m → m ≤ hardwareMax c) ∧
    x.gain.natAbs ≤ 20000 ∧ x.phaseTrim.natAbs ≤ 50 ∧ x.offset.natAbs ≤ 1000

def Synth.Sound (ws : Synth) : Prop := ∀ c : Fin 10, ws.channels[c].Sound c

/-! ### Breaker configurations (R102) -/

/-- A configuration in the ranges of R102, whose feedback input is none of its local sources. -/
def BreakerConfig.Sound (c : BreakerConfig) : Prop :=
  c.trips.length ≤ 4 ∧ c.closes.length ≤ 2 ∧ (100 ≤ c.opening ∧ c.opening ≤ 200000) ∧
    (1000 ≤ c.closing ∧ c.closing ≤ 500000) ∧ (∀ p : Fin 3, c.scatter[p] ≤ 10000) ∧
    (∀ n m, c.fail = some (n, m) → 1 ≤ n ∧ n ≤ 15 ∧ m ≠ 0) ∧
    ∀ i, c.mode = .feedback i → Source.localInput i ∉ c.closes ∧ ∀ t ∈ c.trips, t.source ≠ .localInput i

/-- Every configuration is sound, and no channel is associated with two poles, or twice with one. -/
def BreakerSim.Sound (bs : BreakerSim) : Prop :=
  (∀ k : Fin 4, bs.breakers[k].cfg.Sound ∧ ∀ p : Fin 3, (bs.breakers[k].cfg.assoc[p]).Nodup) ∧
    ∀ (j k : Fin 4) (p q : Fin 3), ∀ c ∈ bs.breakers[j].cfg.assoc[p], c ∈ bs.breakers[k].cfg.assoc[q] → j = k ∧ p = q

/-- The state admits the configuration for breaker `k`: it is sound, its two outputs differ, and no channel of it appears twice or
belongs to another breaker (R102). -/
def State.Admits (s : State) (k : Fin 4) (c : BreakerConfig) (oa ob : Option (Fin 8)) : Prop :=
  c.Sound ∧ (oa = ob → oa = none) ∧ (c.assoc.toList.flatten).Nodup ∧
    ∀ j : Fin 4, j ≠ k → ∀ p q : Fin 3, ∀ x ∈ c.assoc[p], x ∉ s.bs.breakers[j].cfg.assoc[q]

/-! ### The ring (R161, R163) -/

/-- Out of reset, the ring is DOWN exactly while it is not enabled or has no light; there is a time source only while it is
UP. -/
def State.RingSound (s : State) : Prop :=
  (s.pins.resetN = true → (s.pr.ring = .down ↔ ¬(s.pr.enable = true ∧ s.pins.light = true))) ∧
    (s.pr.timeSource.isSome → s.pr.ring = .up)

/-! ### Unchanging history (R142, R144, R148) -/

/-- Records join `before` at the newest end, numbered from its next sequence number on, and then the `gone` oldest leave: what is
left is `after`. No record held is changed or renumbered, and none is put in among them. -/
def Store.ExtendsBy (before : Store) (gone : Nat) (after : Store) : Prop :=
  ∃ joined : List Record, after.records = (before.records ++ joined).drop gone ∧ joined.length < 2 ^ 31 ∧
    after.nextSeq = before.nextSeq + BitVec.ofNat 32 joined.length ∧
    joined.map Record.seq = (List.range joined.length).map (fun i => before.nextSeq + BitVec.ofNat 32 i)

/-- Between two stores, records only leave from the oldest end and join at the newest: a record held is never changed. -/
def Store.Extends (before after : Store) : Prop := ∃ gone : Nat, before.ExtendsBy gone after

end Sys2Proof.Machine
end

