-- ==== Sys2Proof/Certificates/Slice0/Obligations.lean ====
section
/-! DEFINITION. The statements about the MQ-24 that are to be proved, in the order of OBLIGATIONS.json: the step, the frames on
the ports and the ring, the cold start, what every step keeps, and what each step does. -/

open Sys2Proof Sys2Proof.Machine

/-! ### The step, the frames, the messages and the records -/

/-- With a command at the front of the queue, a step is that command's effect on the state with the queue's rest. -/
def Obligations.StepTakesTheFrontCommand : Prop :=
  ∀ (s : State) (c : Instr) (rest : List Instr), s.pending = c :: rest → step s = exec c { s with pending := rest }

/-- On an empty queue the part's clock acts (the model's choice, log 2): held in reset nothing happens; else the first event that
is due; else one oscillator microsecond. A microsecond advances ET by 1 and the correction counter by 1, the counter resting at
0 while the trim is 0; a correcting one, TRIM_CORRECTION, advances ET by 2 for a positive trim and by 0 for a negative one and
starts the counter again (R1, R2). A held count keeps what the grid has given at it (log 5). A sampling instant that passes leaves
the picture `v` that READ INPUTS gave at it (R29, log 37). Nothing else changes. -/
def Obligations.EmptyQueueRunsTheClock : Prop :=
  ∀ s : State, s.pending = [] →
    (s.pins.resetN = false → step s = .next s) ∧
    (s.pins.resetN = true → ∀ v, v = s.inputsPicture →
      (∀ i, s.nextDue = some i → step s = exec i s) ∧
      (s.nextDue = none →
        (¬(s.tb.trim ≠ 0 ∧ 10000000 / s.tb.trim.natAbs ≤ s.tb.corr + 1) →
          step s = .next { s with
            tb := { s.tb with et := s.tb.et + 1, corr := if s.tb.trim = 0 then 0 else s.tb.corr + 1 }
            biu := { s.biu with shown := v }
            now := { counts := 1, realigned := false, opened := false, boundary := false, sampled := none, beacon := false } }) ∧
        (0 < s.tb.trim → 10000000 / s.tb.trim.natAbs ≤ s.tb.corr + 1 →
          exec .trimCorrection s = .next { s with
            tb := { s.tb with et := s.tb.et + 2, corr := 0 }
            biu := { s.biu with shown := v }
            now := { counts := 2, realigned := false, opened := false, boundary := false, sampled := none, beacon := false } } ∧
          step s = exec .trimCorrection s) ∧
        (s.tb.trim < 0 → 10000000 / s.tb.trim.natAbs ≤ s.tb.corr + 1 →
          exec .trimCorrection s = .next { s with
            tb := { s.tb with corr := 0 }
            biu := { s.biu with shown := v }
            now := { s.now with counts := 0, realigned := false, sampled := none } } ∧
          step s = exec .trimCorrection s)))

/-- Held in reset, no command is taken and no transaction is framed: every step but a cold start leaves all but the pin levels
as it was, apart from what a renewed RESET_ASSERT drives again, and a transaction sends fill bytes of all ones (R187). That the
rows of events act no more than commands do, and that pin changes only set their levels, is the model's deduction, log 36. -/
def Obligations.InResetNothingIsDone : Prop :=
  ∀ (s t : State) (c : Instr), s.pins.resetN = false → c ≠ .resetAssert → (∀ e, c ≠ .coldStart e) →
    exec c s = .next t →
    t = { s with pins := t.pins, out := t.out } ∧ t.pins.resetN = false ∧ t.pins.bi = s.pins.bi ∧
    ((∀ p x e, c ≠ .transactionEnd p x e) → t.out = s.out) ∧
    ∀ p x e, c = .transactionEnd p x e → (s.out.get p).cut = none →
      t.out = s.out.put p { s.out.get p with sent := (s.out.get p).sent ++ List.replicate x.bytes.length 255 }

/-- A command whose transaction ends at a full reply queue is lost: it is not executed, no reply joins the queue, the overrun mark
is set and the lost count rises by 1, up to 255 (R180). -/
def Obligations.FullQueueLosesTheCommand : Prop :=
  ∀ (s : State) (c : Instr) (f : Carried), carried c = some f → s.pins.resetN = true → 4 ≤ (s.port f.port).queue.length →
    exec c s = .next (s.setPort f.port
      { s.port f.port with overrun := true, lost := min 255 ((s.port f.port).lost + 1) })

/-- The bytes of a command frame stand for the row of the opcode table: a transaction that ends after the frame of a well-formed
command, the outgoing frame having been clocked out and settled, does what that command does (R178 to R181, R190; the rows and the
layout of the fields are the model's choice, logs 1 and 10). `e` is
the level of ESTOP_N at the end. -/
def Obligations.TransactionCarriesTheCommand : Prop :=
  ∀ (s : State) (c : Instr) (f : Carried) (o : Outgoing) (e : Bool) (x : Transfer),
    s.pins.resetN = true → carried c = some f → c.wellFormed = true → f.payload.length ≤ 240 →
    x.bytes = f.frame → (s.port f.port).framing = some o →
    (∀ p tag e', c = .clearInhibit p tag e' → e' = e) →
    (∀ p tag e', c = .restart p tag e' → e' = e) →
    exec (.transactionEnd f.port x e) s =
      exec c (State.setPort (s.clockOut f.port x) f.port ((s.port f.port).settle o f.frame.length))

/-- A ring message whose every field has a meaning reads back from its bytes (R192, R193). -/
def Obligations.RingMessagesReadBack : Prop :=
  ∀ (node : Fin 4) (m : Message), m.body.Carries → m.hop < 256 → (m.orig = node ∨ (1 ≤ m.hop ∧ m.hop ≤ 3)) →
    Message.ofBytes node m.bytes = some m

/-- Every record takes the length of its kind, a multiple of 4 from 20 to 64 bytes (R142, R143, R194). A sample frame is 43
bytes: the frame number, the low 16 bits of device seconds, the microseconds, the run state, the active slot or 255, ten signed
out values of 3 bytes, the output pattern, the flags, and the CRC of the bytes before it (R191). -/
def Obligations.RecordAndSampleFrameLayout : Prop :=
  (∀ r : Record, r.bytes.length = r.length ∧ 20 ≤ r.length ∧ r.length ≤ 64 ∧ r.length % 4 = 0 ∧
    [48, 64, 40, 24, 24, 20, 20, 24, 28, 36, 28, 24][r.body.code]? = some r.length) ∧
  ∀ d : DeliveredFrame, d.frame.micros < 1000000 → (∀ c : Fin 10, -524287 ≤ d.frame.samples[c] ∧ d.frame.samples[c] ≤ 524287) →
    d.bytes.length = 43 ∧
    beValue (d.bytes.take 2) = d.number.toNat ∧
    beValue ((d.bytes.drop 2).take 2) = d.frame.seconds.toNat ∧
    beValue ((d.bytes.drop 4).take 3) = d.frame.micros ∧
    d.bytes[7]? = some (BitVec.ofNat 8 d.frame.runState.code) ∧
    d.bytes[8]? = some (match d.frame.active with
      | some k => BitVec.ofNat 8 k.val
      | none => 255) ∧
    (∀ c : Fin 10, (signed 3) ((d.bytes.drop (9 + 3 * c.val)).take 3) = some (d.frame.samples[c], [])) ∧
    d.bytes[39]? = some d.frame.pattern ∧
    d.bytes[40]? = some (BitVec.ofNat 8 (d.frame.streamEnable.toNat + 2 * d.held.toNat)) ∧
    beValue (d.bytes.drop 41) = (crc16 (d.bytes.take 41)).toNat

/-- A commit joins its record to the store at the newest end with the next sequence number. An essential record, of the kinds
RUN_OPEN, RUN_CLOSE, MEASUREMENT_RESULT, IMPAIRMENT and TRAP, takes its bytes from the reserve and nothing is discarded for it,
so that the available space stays while a reader is subscribed (R143, R144, R149). Another finds room outside the reserve; else
the oldest records go, each passed by every subscribed reader, and no more of them than make room; else it is dropped: nothing
is discarded, it takes no number, and the total dropped count, and while a run exists, whose number is not 0, the run dropped
count up to 65,535, rise by 1 (R147, R148). A commit raises REPORT_READY for each subscribed reader, and SPACE_LOW with cause
FALL where it brings the available space below 4,096; a drop raises SPACE_LOW with cause DROP (R150, R151). The space is that of
sound states, which every step keeps. -/
def Obligations.CommitsFindRoomOrAreDropped : Prop :=
  ∀ (s t : State) (body : RecordBody) (n : Nat), t = s.commit body → n = body.length → s.SpaceSound → s.rs.LowSound →
    t = { s with rs := t.rs, notices := t.notices } ∧
    (∀ (q : Port) (k : Fin 11), k ≠ 8 → k ≠ 9 → (t.notices.get q).entries[k] = (s.notices.get q).entries[k]) ∧
    (∀ gone kept, s.rs.records = gone ++ kept → (∀ r ∈ gone, s.rs.Passed r) → (∀ r ∈ kept, ¬s.rs.Passed r) →
      s.rs.available = 65536 - s.rs.reserve - totalLength kept) ∧
    (body.code ≤ 4 →
      s.Commits body 0 (s.rs.reserve - n) t ∧
      (s.rs.Numbered → s.rs.CursorsSound → (∃ p : Port, (s.rs.reader p).subscribed = true) → n ≤ s.rs.reserve →
        t.rs.available = s.rs.available)) ∧
    (5 ≤ body.code →
      (∀ gone, s.rs.RoomAfter n gone → (∀ j < gone, s.rs.roomWithout j < n) → s.Commits body gone s.rs.reserve t) ∧
      ((∀ gone, ¬s.rs.RoomAfter n gone) →
        t.rs = { s.rs with
          runDropped := if s.runNumber = 0 then s.rs.runDropped else min 65535 (s.rs.runDropped + 1)
          totalDropped := s.rs.totalDropped + 1 } ∧
        t.notices.routes = s.notices.routes ∧
        ∀ q : Port, (t.notices.get q).entries[9] = (s.notices.get q).entries[9] ∧
          (s.notices.routes[8].Names q → s.notices.Raises q (.spaceLow true s.rs.available t.rs.runDropped) t.notices) ∧
          (¬s.notices.routes[8].Names q → (t.notices.get q).entries[8] = (s.notices.get q).entries[8])))

/-! ### The cold start -/

/-- A cold start with ESTOP_N high brings every block to the state right after reset, whatever it held; the pins keep their
levels, and the model's own record of the wires and the queue stay (R187). -/
def Obligations.ColdStartGivesTheResetState : Prop :=
  ∀ s : State, exec (.coldStart true) s =
    .next { State.reset with
      pins := { s.pins with resetN := true, estopN := true }, out := s.out, pending := s.pending }

/-- R74: a cold start brings SQ to the values of its table, and with ESTOP_N low the emergency stop then takes the part to
INHIBITED with the stream enable clear. -/
def Obligations.ColdSequencer : Prop :=
  ∀ s : State,
    (∃ t, exec (.coldStart true) s = .next t ∧
      t.sq.runState = .idle ∧ t.sq.lastRun = 0 ∧ t.sq.owner = none ∧ t.sq.options = none ∧ t.sq.startPending = none ∧
      t.sq.startInstant = none ∧ t.sq.active = none ∧ t.sq.entryBoundary = none ∧ t.sq.count = 0 ∧ t.sq.pendingTr = none ∧
      t.sq.held = none ∧ t.sq.impairments = [] ∧ t.sq.overflow = false ∧ t.sq.lastClose = none ∧ t.sq.streamEnable = true ∧
      exec (.coldStart false) s =
        .next (State.raise
          { t with sq := { t.sq with runState := .inhibited, streamEnable := false }, pins := { t.pins with estopN := false } }
          (.estop .pin 0)))

/-- R121, R140, R156: the breakers, the measurements and the report store after a cold start, whatever the level of ESTOP_N. -/
def Obligations.ColdBreakersMeasurementsAndStore : Prop :=
  ∀ (s : State) (e : Bool), ∃ t, exec (.coldStart e) s = .next t ∧
    (∀ k : Fin 4, t.bs.breakers[k].cfg.trips = [] ∧ t.bs.breakers[k].cfg.closes = [] ∧
      t.bs.breakers[k].cfg.opening = 40000 ∧ t.bs.breakers[k].cfg.closing = 80000 ∧
      t.bs.breakers[k].cfg.mode = .simulated ∧ t.bs.breakers[k].cfg.fail = none ∧ t.bs.breakers[k].cfg.shared = false ∧
      t.bs.breakers[k].trips = 0 ∧ t.bs.breakers[k].closes = 0 ∧
      ∀ p : Fin 3, t.bs.breakers[k].cfg.scatter[p] = 0 ∧ t.bs.breakers[k].cfg.assoc[p] = [] ∧
        t.bs.breakers[k].poles[p] =
          { state := .closed, pending := none, late := false, opTrip := none, remembered := none, failure := none }) ∧
    (∀ n : Fin 8, t.biu.funcs[n] = .sequence) ∧
    (∀ m : Fin 32, t.mu.meas[m].definition = none ∧ t.mu.meas[m].live = .inactive ∧ t.mu.meas[m].occ = 0 ∧
      t.mu.meas[m].start = none ∧ t.mu.meas[m].stop = none ∧ t.mu.meas[m].expiry = none ∧ t.mu.meas[m].history = [] ∧
      t.mu.meas[m].truncated = false ∧ t.mu.meas[m].result = none) ∧
    t.rs = { records := [{ seq := 1, run := 0, body := .startUp false { et := 0, dev := 0 } }], nextSeq := 2, reserve := 0,
             runDropped := 0, totalDropped := 0, cpReader := { cursor := 1, subscribed := true },
             apReader := { cursor := 1, subscribed := false }, low := false } ∧
    (∀ r ∈ t.rs.records, r.bytes.length = 24) ∧
    t.notices.cp.entries[9] = some { detail := .reportReady 1, count := 1 }

/-- The state right after reset meets every invariant that a step keeps. -/
def Obligations.ResetMeetsEveryInvariant : Prop :=
  State.reset.LinesSound ∧ State.reset.PortsSound ∧ State.reset.rs.Numbered ∧ State.reset.SpaceSound ∧
    State.reset.rs.CursorsSound ∧ State.reset.rs.LowSound ∧ State.reset.bs.RemembersSound ∧
    State.reset.sq.Sound ∧ State.reset.sq.ListSound ∧ State.reset.sq.EnableSound ∧ State.reset.tb.Sound ∧ State.reset.OutputsSound ∧
    State.reset.st.Sound ∧ State.reset.RingSound ∧ State.reset.ws.Sound ∧ State.reset.bs.Sound

/-! ### What every step keeps -/

/-- R183: every step leaves each attention line asserted exactly while its port's pending set holds an entry, and high in
reset. -/
def Obligations.EveryStepKeepsTheAttentionLines : Prop :=
  ∀ s t : State, s.LinesSound → step s = .next t → t.LinesSound

/-- A reply queue never holds more than 4 replies, the overrun mark stands exactly while frames are counted as lost, and a pending
set holds each kind in its own place, raised 1 to 255 times (R180, R182). -/
def Obligations.EveryStepKeepsThePortsSound : Prop :=
  ∀ s t : State, s.PortsSound → step s = .next t → t.PortsSound

/-- The records held are numbered consecutively, modulo 2^32, up to just below the next sequence number (R144). The records and
the run reserve together never exceed the 65,536 bytes of the store, so that the unused space never falls below the reserve, and
the reserve covers every essential record that the run in progress may still commit, and is 0 while no run exists (R142, R147 to
R149). The cursor of a subscribed reader lies between the number of the oldest record held and the next sequence number, both
included (R146). The low-space state stands exactly while the available space is below 4,096 (R150, R157). -/
def Obligations.EveryStepKeepsTheNumbering : Prop :=
  ∀ s t : State, s.rs.Numbered → step s = .next t →
    t.rs.Numbered ∧ (s.rs.LowSound → t.rs.LowSound) ∧ (s.SpaceSound → t.SpaceSound ∧ (s.rs.CursorsSound → t.rs.CursorsSound))

/-- Outside a run there is no owner, no active slot, no exit met and no start pending; an ARMED run has an owner and options, and
a RUNNING one an active slot and its entry boundary as well; the stream enable is clear exactly in INHIBITED (R51, R55, R67 to
R70). The impairment list never holds more than 32 intervals, and at most one open one of each kind and subject (R71). -/
def Obligations.EveryStepKeepsTheRunRecord : Prop :=
  ∀ s t : State, step s = .next t →
    (s.sq.Sound → s.sq.EnableSound → t.sq.Sound ∧ t.sq.EnableSound) ∧ (s.sq.ListSound → t.sq.ListSound)

/-- The trim and the offset stay in their ranges, the good-mark count stays below 4 in ACQUIRE, source NONE means FREE, the
holdover timer runs exactly in HOLDOVER, and a label is pending only with source PPS (R2, R3, R6, R9, R12, R14). -/
def Obligations.EveryStepKeepsTheTimeBase : Prop :=
  ∀ s t : State, s.tb.Sound → step s = .next t → t.tb.Sound

/-- Every output stands at the level its function gives for the run state, the active state and the poles, and is inactive in
reset (R31, R32, R105, R187). -/
def Obligations.EveryStepKeepsTheOutputs : Prop :=
  ∀ s t : State, s.OutputsSound → step s = .next t → t.OutputsSound

/-- Out of reset the ring is DOWN exactly while it is disabled or dark, and there is a time source only while it is UP (R161,
R163). -/
def Obligations.EveryStepKeepsTheRing : Prop :=
  ∀ s t : State, s.RingSound → step s = .next t → t.RingSound

/-- Every record of the state table lies in the ranges of R37 to R41 with its magnitudes within the hardware maxima, a PEER
trigger in it has mode LOCAL, and a RAMP_DONE trigger stands in a RAMP record (R40, R43, R44); every out value fits the 20 bits
of the sample link, and declared maxima and calibrations stay in range (R76, R79, R87); every breaker configuration lies in its
ranges, and no channel belongs to two poles (R102), and a pole holds a remembered trip in CLOSING alone (R110, R112, R116). -/
def Obligations.EveryStepKeepsTheTableAndTheChannels : Prop :=
  ∀ s t : State, step s = .next t →
    (s.st.Sound → t.st.Sound) ∧ (s.ws.Sound → t.ws.Sound) ∧ (s.bs.Sound → t.bs.Sound) ∧
      (s.bs.RemembersSound → t.bs.RemembersSound)

/-- A record held in the store is never altered: short of a cold start, records join at the newest end, numbered from the next
sequence number on, and leave from the oldest end, so that a record numbered before the old next sequence number is one that was
held, unchanged; and but for ERASE STORE none leaves that a subscribed reader has not passed (R142, R144, R146, R148, R155). The
breaker configurations lie in the ranges of R102, which every step keeps. -/
def Obligations.RecordsAreNeverAltered : Prop :=
  ∀ (s t : State) (c : Instr), s.bs.Sound → (∀ e, c ≠ .coldStart e) → exec c s = .next t →
    s.rs.Extends t.rs ∧
    (∀ r ∈ t.rs.records, 1 ≤ (s.rs.nextSeq - r.seq).toNat → (s.rs.nextSeq - r.seq).toNat ≤ 2 ^ 31 →
      r ∈ s.rs.records) ∧
    (s.rs.Numbered → s.SpaceSound → (∀ p tag, c ≠ .eraseStore p tag) →
      (∀ p x e f, c = .transactionEnd p x e → CommandFrame.ofBytes x.bytes = some f → f.code ≠ 33) →
      ∃ gone : Nat, s.rs.ExtendsBy gone t.rs ∧
        ∀ p : Port, (s.rs.reader p).subscribed = true → gone ≤ ((s.rs.reader p).cursor - s.rs.oldest).toNat)

/-- Only CLEAR INHIBIT, a RESTART and a cold start, each with ESTOP_N high, or a transaction that carries one of the two commands,
take the part out of INHIBITED (R69, R70, R75). -/
def Obligations.OnlyTheseLeaveInhibited : Prop :=
  ∀ (s t : State) (c : Instr), s.sq.runState = .inhibited → exec c s = .next t → t.sq.runState ≠ .inhibited →
    t.sq.runState = .idle ∧
      ((∃ p tag, c = .clearInhibit p tag true) ∨ (∃ p tag, c = .restart p tag true) ∨ c = .coldStart true ∨
        ∃ p x f, c = .transactionEnd p x true ∧ CommandFrame.ofBytes x.bytes = some f ∧
          (f.code = 27 ∨ f.code = 39))

/-- From ARM until a run ends its owner, its number and its options stay the same, whatever is commanded (R51, R52); while it is
RUNNING the offset between device time and ET does not change: of all commands and events only a cold start moves it (R3). -/
def Obligations.ARunKeepsItsOwnerAndItsOffset : Prop :=
  ∀ (s t : State) (c : Instr), exec c s = .next t →
    ((s.sq.runState = .armed ∨ s.sq.runState = .running) → (t.sq.runState = .armed ∨ t.sq.runState = .running) →
      t.sq.owner = s.sq.owner ∧ t.sq.lastRun = s.sq.lastRun ∧ t.sq.options = s.sq.options) ∧
    (s.running = true → (∀ e, c ≠ .coldStart e) → t.tb.offset = s.tb.offset)

/-! ### The time base -/

/-- READ TIME and READ BREAKERS answer OK with the pictures that R17 and R120 list, and change nothing. -/
def Obligations.ReadTimeAndReadBreakers : Prop :=
  ∀ (s : State) (p : Port) (tag : Byte), s.Takes p →
    exec (.readTime p tag) s = .next (s.replied p tag .ok (.time
      { now := { et := s.tb.et, dev := (s.tb.et.toNat + s.tb.offset) % (4294967296 * 1000000) }
        trim := s.tb.trim
        source := s.tb.source
        disc := s.tb.disc
        good := s.tb.good
        suspect := s.tb.suspect
        absent := s.tb.absent
        stepHeld := s.tb.stepHeld
        label := s.tb.label
        mark := s.tb.mark.map (fun m => (m.2, (s.tb.et - m.1).toNat))
        holdover := s.tb.holdover.map (fun t => (s.tb.et - t).toNat) })) ∧
    ∃ v : Vector BreakerPicture 4, exec (.readBreakers p tag) s = .next (s.replied p tag .ok (.breakers v)) ∧
      ∀ k : Fin 4,
        v[k].cfg = s.bs.breakers[k].cfg ∧ v[k].trips = s.bs.breakers[k].trips ∧ v[k].closes = s.bs.breakers[k].closes ∧
        v[k].poles = s.bs.breakers[k].poles ∧
        (∀ n, v[k].out52a = some n → s.biu.funcs[n] = .aux k false) ∧
        (v[k].out52a = none → ∀ n : Fin 8, s.biu.funcs[n] ≠ .aux k false) ∧
        (∀ n, v[k].out52b = some n → s.biu.funcs[n] = .aux k true) ∧
        (v[k].out52b = none → ∀ n : Fin 8, s.biu.funcs[n] ≠ .aux k true)

/-- SET TRIM is taken in FREE alone and its range is judged first (R5). SET TIME in FREE makes device time read the value given,
with a record, and elsewhere outside a run leaves a label for source PPS (R14). In an ARMED run a start that is pending then
waits for the first boundary of the new grid, and an AT_TIME start whose instant the change reaches is met at it (R57; that the
command acts in ARMED so is the model's deduction, log 48). That its fields are judged before the run state, so that one out of
range is BAD_FIELD while RUNNING too, is the model's choice, log 11. CLEAR TIME SUSPECT clears the flag, with a record and a
notice where it found it set (R13). -/
def Obligations.TrimTimeAndSuspectCommands : Prop :=
  ∀ (s : State) (p : Port) (tag : Byte), s.Takes p →
    (∀ trim : Int, (trim < -2000 ∨ 2000 < trim) →
      exec (.setTrim p tag trim) s = .next (s.replied p tag .badField .empty)) ∧
    (∀ trim : Int, -2000 ≤ trim → trim ≤ 2000 → s.tb.disc ≠ .free →
      exec (.setTrim p tag trim) s = .next (s.replied p tag .state .empty)) ∧
    (∀ trim : Int, -2000 ≤ trim → trim ≤ 2000 → s.tb.disc = .free →
      exec (.setTrim p tag trim) s =
        .next (State.replied { s with tb := { s.tb with trim := trim, corr := 0 } } p tag .ok .empty)) ∧
    (∀ seconds micros, (1000000 ≤ micros ∨ 4294967296 ≤ seconds) →
      exec (.setTime p tag seconds micros) s = .next (s.replied p tag .badField .empty)) ∧
    (∀ seconds micros, seconds < 4294967296 → micros < 1000000 →
      (s.running = true → exec (.setTime p tag seconds micros) s = .next (s.replied p tag .state .empty)) ∧
      (s.running = false → s.tb.disc ≠ .free → s.tb.source = .pps →
        exec (.setTime p tag seconds micros) s =
          .next (State.replied { s with tb := { s.tb with label := some seconds } } p tag .ok .empty)) ∧
      (s.running = false → s.tb.disc ≠ .free → s.tb.source ≠ .pps →
        exec (.setTime p tag seconds micros) s = .next (s.replied p tag .state .empty)) ∧
      ((s.sq.runState = .idle ∨ s.sq.runState = .inhibited) → s.tb.disc = .free →
        ∃ t, exec (.setTime p tag seconds micros) s = .next t ∧ t.dev = seconds * 1000000 + micros ∧
          t.tb = { s.tb with offset := t.tb.offset } ∧ t.now = { s.now with realigned := true } ∧
          t.sq = { s.sq with startPending := t.sq.startPending } ∧
          s.Recorded (.timeEvent { cause := .set, before := .free, after := .free, tq := ⟨.free, s.tb.suspect⟩, e := none,
                                   dev := seconds * 1000000 + micros, seconds := none }) t ∧
          t.biu = s.biu ∧ t.st = s.st ∧ t.ws = s.ws ∧ t.bs = s.bs ∧ t.mu = s.mu ∧ t.pr = s.pr ∧ t.pins = s.pins ∧
          t.out = s.out ∧ t.pending = s.pending ∧ s.Answered p tag .ok .empty t) ∧
      (∀ o, s.sq.runState = .armed → s.sq.options = some o → s.tb.disc = .free → ∀ (meets : Prop) (set : RecordBody),
        (meets ↔ ∃ u, o.start = .atTime u ∧ s.sq.startPending = none ∧ u ≤ seconds * 1000000 + micros) →
        set = .timeEvent { cause := .set, before := .free, after := .free, tq := ⟨.free, s.tb.suspect⟩, e := none
                           dev := seconds * 1000000 + micros, seconds := none } →
        ∃ t, exec (.setTime p tag seconds micros) s = .next t ∧ t.dev = seconds * 1000000 + micros ∧
          t.tb = { s.tb with offset := t.tb.offset } ∧ t.now = { s.now with realigned := true } ∧
          (s.sq.startPending.isSome = true ∨ meets ∧ o.joint = 0 →
            t.sq = { s.sq with startPending := some (State.nextBoundary { s with tb := t.tb, now := t.now }) }) ∧
          (meets → o.joint ≠ 0 → s.pr.proposal.role = .idle → t.sq = s.sq ∧ s.Proposes none .preempt t ∧
            s.RecordedAll [set, .peerEvent (.proposed { proposer := s.pr.node, number := s.pr.nextNumber, target := none
                                                        mode := .preempt })] t) ∧
          (¬meets ∨ o.joint ≠ 0 ∧ s.pr.proposal.role ≠ .idle →
            t.sq = { s.sq with startPending := t.sq.startPending } ∧ (s.sq.startPending = none → t.sq = s.sq)) ∧
          (¬(meets ∧ o.joint ≠ 0 ∧ s.pr.proposal.role = .idle) → s.Recorded set t ∧ t.pr = s.pr ∧ t.out = s.out) ∧
          t.biu = s.biu ∧ t.st = s.st ∧ t.ws = s.ws ∧ t.bs = s.bs ∧ t.mu = s.mu ∧ t.pins = s.pins ∧ t.pending = s.pending ∧
          s.Answered p tag .ok .empty t)) ∧
    (s.tb.suspect = false → exec (.clearTimeSuspect p tag) s = .next (s.replied p tag .ok .empty)) ∧
    (s.tb.suspect = true →
      exec (.clearTimeSuspect p tag) s = .next
        (((State.commit { s with tb := { s.tb with suspect := false } }
          (.timeEvent { cause := .suspectCleared, before := s.tb.disc, after := s.tb.disc, tq := ⟨s.tb.disc, false⟩,
                        e := none, dev := s.dev, seconds := none })).raise
          (.timeState s.tb.disc false s.tb.absent)).replied p tag .ok .empty))

/-- SET REFERENCE: the source already selected changes nothing; NONE goes to FREE and stops the watch and the holdover timer; PPS
or RING goes to ACQUIRE, forgets the last mark and starts the watch now; another code is refused (R6). A change of discipline
state commits a TIME_EVENT record of cause STATE and raises TIME_STATE (R16); where it leaves LOCKED in a run armed with
require-lock, an IMPAIRMENT record of TIME_QUALITY is committed too (R72): that it follows the STATE record is the model's choice,
log 75. Without such a change there is no record and no notice. -/
def Obligations.SetReferenceSelectsTheSource : Prop :=
  ∀ (s : State) (p : Port) (tag : Byte), s.Takes p →
    (∀ code, 3 ≤ code → exec (.setReference p tag code) s = .next (s.replied p tag .badField .empty)) ∧
    (∀ code src, (code = 0 ∧ src = RefSource.noSource ∨ code = 1 ∧ src = .pps ∨ code = 2 ∧ src = .ring) →
      (s.tb.source = src → exec (.setReference p tag code) s = .next (s.replied p tag .ok .empty)) ∧
      (s.tb.source ≠ src →
        ∃ t, exec (.setReference p tag code) s = .next t ∧ s.Answered p tag .ok .empty t ∧
          (src = .noSource → t.tb = { s.tb with
            source := src, disc := .free, good := 0, stepHeld := false, label := none, watch := none, holdover := none }) ∧
          (src ≠ .noSource → t.tb = { s.tb with
            source := src, disc := .acquire, good := 0, stepHeld := false, label := none, mark := none,
            watch := some s.tb.et, holdover := if s.tb.disc = .acquire then s.tb.holdover else none }) ∧
          (t.tb.disc = s.tb.disc → t.rs = s.rs ∧ t.notices = s.notices) ∧
          (t.tb.disc ≠ s.tb.disc →
            t.Notified s.notices.routes[6] (.timeState t.tb.disc s.tb.suspect s.tb.absent) ∧
            s.RecordedAll (stateRecord s.tb.disc t.tb.disc s.tb.suspect none s.dev :: s.qualityLost t) t) ∧
          s.SameRun t ∧ t.now = s.now ∧ t.biu = s.biu ∧ t.st = s.st ∧ t.ws = s.ws ∧ t.bs = s.bs ∧ t.mu = s.mu ∧ t.pr = s.pr ∧
          t.pins = s.pins ∧ t.out = s.out ∧ t.pending = s.pending))

/-- A reference mark. One of another source, or within 900,000 ticks of the last accepted one, does nothing (R7); an accepted
one measures e (R8), renews the watch and clears the reference-absent condition. LOCKED: |e| of at most 20 adjusts the trim, a
larger one leaves LOCKED (R10). ACQUIRE: |e| of at most 50 adjusts the trim and counts, the fourth in a row bringing LOCKED; a
larger one steps device time outside a run and is held in one (R9). FREE, and HOLDOVER outside a run, go to ACQUIRE and deal
with the mark there; HOLDOVER in a run only notes it (R11). A value that names the whole second then moves the seconds, outside
a run (R15): with source PPS the pending label. With source RING the time source's second beacon is the mark: over `hop` links
it stands for its device time and 20 µs a link, whose seconds it names. `MarkDealt` and `Relabelled` say each case. A change of
discipline state commits STATE, a step STEP, a relabel LABEL, in that order, and the first two raise TIME_STATE (R16); leaving
LOCKED in a run with require-lock opens TIME_QUALITY (R72). Where the mark makes a proposal, its record follows, of which
nothing is said here (R57). The model's own are that the mark is dealt with after the watch is renewed and the condition
cleared, as TIME_STATE then shows (log 16); that FREE, LOCKED and HOLDOVER go to ACQUIRE with no good mark counted yet (log 15);
that a good mark with e of 0 restarts the correction counter too (log 50); that a beacon is a mark when its node is the time
source before it and after it (log 19); and that the IMPAIRMENT record follows TB's own (log 75). -/
def Obligations.ReferenceMarkIsDealtWith : Prop :=
  ∀ s : State, s.pins.resetN = true →
    (s.tb.source ≠ .pps → exec .referenceMark s = .next s) ∧
    (∀ t e, s.tb.mark = some (t, e) → (s.tb.et - t).toNat < 900000 → exec .referenceMark s = .next s) ∧
    (s.tb.source = .pps → (∀ t e, s.tb.mark = some (t, e) → 900000 ≤ (s.tb.et - t).toNat) →
      ∀ e : Int, (e = (devMicros s.dev : Int) ∧ e < 500000 ∨ e = (devMicros s.dev : Int) - 1000000 ∧ -500000 ≤ e) →
        ∃ t, exec .referenceMark s = .next t ∧ s.MarkTaken e s.tb.label t ∧
          (¬s.mayPropose → t.pr = s.pr ∧ t.out = s.out) ∧
          (t.tb.disc = s.tb.disc → t.tb.offset = s.tb.offset → s.tb.label = none → t = { s with tb := t.tb })) ∧
    ∀ (m : Message) (b : Beacon), s.Arrives m → m.body = .beacon b →
      ∃ t, exec (.beaconReceived m.bytes) s = .next t ∧
        ((b.dev % 1000000 ≠ 0 ∨ s.tb.source ≠ .ring ∨ s.pr.timeSource ≠ some m.orig) → t.tb = s.tb) ∧
        (b.dev % 1000000 = 0 → s.tb.source = .ring → s.pr.timeSource = some m.orig → t.pr.timeSource = some m.orig →
          (∀ t0 e0, s.tb.mark = some (t0, e0) → (s.tb.et - t0).toNat < 900000 → t.tb = s.tb) ∧
          ((∀ t0 e0, s.tb.mark = some (t0, e0) → 900000 ≤ (s.tb.et - t0).toNat) → ∀ (e : Int) (expected : Nat),
            expected = (b.dev + 20 * m.hop) % 4294967296000000 → ((s.dev : Int) - expected - e) % 1000000 = 0 →
            -500000 ≤ e → e < 500000 → s.MarkTaken e (some (expected / 1000000)) t))

/-- The mark watch runs out 1,100,000 ticks after the last reference instant: ACQUIRE and LOCKED go to HOLDOVER, whose timer then
starts, with a STATE record, and the reference-absent condition comes to stand, with an ABSENT record. The holdover timer runs out
after 300,000,000 ticks: FREE, and TIME SUSPECT set, with a STATE record. TIME_STATE shows what stands then (R12, R16); leaving
LOCKED in a run with require-lock opens TIME_QUALITY (R72), its IMPAIRMENT record after TB's own (log 75). That before its instant
neither row does anything is the model's choice, log 4. -/
def Obligations.WatchAndHoldoverExpire : Prop :=
  ∀ s : State, s.pins.resetN = true →
    (∀ w, s.tb.source ≠ .noSource → s.tb.watch = some w →
      ((s.tb.et - w).toNat < 1100000 → exec .markWatchExpiry s = .next s) ∧
      (1100000 ≤ (s.tb.et - w).toNat → (s.tb.disc = .acquire ∨ s.tb.disc = .locked ∨ s.tb.absent = false) →
        ∃ t, exec .markWatchExpiry s = .next t ∧
          t.tb = { s.tb with
            disc := if s.tb.disc = .acquire ∨ s.tb.disc = .locked then .holdover else s.tb.disc
            holdover := if s.tb.disc = .acquire ∨ s.tb.disc = .locked then some s.tb.et else s.tb.holdover
            absent := true } ∧
          s.RecordedAll
            ((if s.tb.disc = .acquire ∨ s.tb.disc = .locked then [stateRecord s.tb.disc .holdover s.tb.suspect none s.dev] else []) ++
              (if s.tb.absent then [] else [.timeEvent { cause := .absent, before := t.tb.disc, after := t.tb.disc
                                                         tq := ⟨t.tb.disc, s.tb.suspect⟩, e := none, dev := s.dev
                                                         seconds := none }]) ++
              s.qualityLost t) t ∧
          t.Notified s.notices.routes[6] (.timeState t.tb.disc s.tb.suspect true) ∧
          s.SameRun t ∧ s.SameBase { t with tb := s.tb } ∧ t.now = s.now ∧ t.biu = s.biu ∧ t.ws = s.ws ∧ t.bs = s.bs ∧
          t.mu = s.mu ∧ t.pr = s.pr ∧ t.out = s.out)) ∧
    (∀ h, s.tb.disc = .holdover → s.tb.holdover = some h →
      ((s.tb.et - h).toNat < 300000000 → exec .holdoverExpiry s = .next s) ∧
      (300000000 ≤ (s.tb.et - h).toNat →
        ∃ t, exec .holdoverExpiry s = .next t ∧
          t.tb = { s.tb with disc := .free, holdover := none, suspect := true } ∧
          s.Recorded (stateRecord .holdover .free true none s.dev) t ∧
          t.Notified s.notices.routes[6] (.timeState .free true s.tb.absent) ∧
          s.SameRun t ∧ s.SameBase { t with tb := s.tb } ∧ t.now = s.now ∧ t.biu = s.biu ∧ t.ws = s.ws ∧ t.bs = s.bs ∧
          t.mu = s.mu ∧ t.pr = s.pr ∧ t.out = s.out))

/-! ### Inputs and outputs -/

/-- CONFIGURE INPUT and CONFIGURE OUTPUT are taken in IDLE with their fields in range, and SET REST PATTERN always. An input
configured loses its candidate and chatter record and is sampled afresh; an output then drives the level of its function: its
bit of the pattern, or inactive outside a run (R20, R30, R31). That outside IDLE the first two are answered STATE whatever their
fields hold, one out of range too, is the model's choice, log 11. -/
def Obligations.InputAndOutputConfiguration : Prop :=
  ∀ (s : State) (p : Port) (tag : Byte), s.Takes p →
    (∀ a, s.sq.runState ≠ .idle → exec (.configureInput p tag a) s = .next (s.replied p tag .state .empty)) ∧
    (∀ n f, s.sq.runState ≠ .idle → exec (.configureOutput p tag n f) s = .next (s.replied p tag .state .empty)) ∧
    (s.sq.runState = .idle →
      (∀ a : InputArgs, (16 ≤ a.input ∨ 1 < a.polarity ∨ 20000 < a.tdb ∨ a.tdb % 10 ≠ 0 ∨ 255 < a.limit ∨ 1 < a.shared ∨
          1 < a.soe) →
        exec (.configureInput p tag a) s = .next (s.replied p tag .badField .empty)) ∧
      (∀ (i : Fin 16) (low : Bool) (tdb limit : Nat) (shared soe : Bool), tdb ≤ 20000 → tdb % 10 = 0 → limit ≤ 255 →
        exec (.configureInput p tag { input := i.val, polarity := low.toNat, tdb := tdb, limit := limit,
                                      shared := shared.toNat, soe := soe.toNat }) s =
          .next (State.replied { s with biu := { s.biu with inputs := upd s.biu.inputs i { s.biu.inputs[i] with
            cfg := { activeLow := low, tdb := tdb, limit := limit, shared := shared, soe := soe }
            cand := none, edges := [], lastEdge := none, chattering := false, resample := true } } } p tag .ok .empty)) ∧
      (∀ n f, (8 ≤ n ∨ (∃ k w, f = .aux k w ∧ (4 ≤ k ∨ 1 < w)) ∨ ∃ code, f = .other code) →
        exec (.configureOutput p tag n f) s = .next (s.replied p tag .badField .empty)) ∧
      (∀ (n : Fin 8) (f : OutputFuncArg) (g : OutputFunc),
        (f = .sequence ∧ g = .sequence ∨ ∃ (k : Fin 4) (b : Bool), f = .aux k.val b.toNat ∧ g = .aux k b) →
        ((∃ m : Fin 8, m ≠ n ∧ s.biu.funcs[m] = g) → g ≠ .sequence →
          exec (.configureOutput p tag n.val f) s = .next (s.replied p tag .badField .empty)) ∧
        ((g = .sequence ∨ ∀ m : Fin 8, m ≠ n → s.biu.funcs[m] ≠ g) →
          ∃ d : BitVec 8,
            exec (.configureOutput p tag n.val f) s = .next
              (State.replied { s with biu := { s.biu with funcs := upd s.biu.funcs n g, driven := d } } p tag .ok .empty) ∧
            ∀ m : Fin 8, inSet d m.val = match (upd s.biu.funcs n g)[m] with
              | .sequence => inSet s.biu.rest m.val
              | .aux _ _ => false))) ∧
    (∀ pattern : BitVec 8, ∃ d : BitVec 8,
      exec (.setRestPattern p tag pattern) s = .next
        (State.replied { s with biu := { s.biu with rest := pattern, driven := d } } p tag .ok .empty) ∧
      (s.running = false → ∀ m : Fin 8, inSet d m.val = match s.biu.funcs[m] with
        | .sequence => inSet pattern m.val
        | .aux _ _ => false) ∧
      (∀ b, s.running = true → s.activeBody = some b → ∀ m : Fin 8, inSet d m.val = match s.biu.funcs[m] with
        | .sequence => inSet b.pattern m.val
        | .aux k x => s.auxLevel k x))

/-- INPUT SAMPLE at a sampling instant, a multiple of 10 on ET: each pin becomes a logical level by its polarity; an input to be
sampled afresh takes it as raw, stable and published level with no event; a level other than the stable one opens a candidate, and
each raw change of an open one is counted up to 255 (R19, R20, R21). Nothing else changes. -/
def Obligations.InputSampleOpensAndCounts : Prop :=
  ∀ (s : State) (levels : BitVec 16) (at' : Tick), s.pins.resetN = true → s.sampleNow = some at' →
    at'.toNat % 10 = 0 ∧
    ∃ inputs : Vector Input 16,
      exec (.inputSample levels) s = .next { s with
        now := { s.now with sampled := some at' }, pins := { s.pins with bi := levels }
        biu := { s.biu with inputs := inputs } } ∧
      ∀ i : Fin 16, ∀ l : Level, (l = .active ↔ inSet levels i.val ≠ s.biu.inputs[i].cfg.activeLow) →
        (s.biu.inputs[i].resample = true →
          inputs[i] = { s.biu.inputs[i] with raw := l, stable := l, published := l, resample := false }) ∧
        (s.biu.inputs[i].resample = false →
          (s.biu.inputs[i].cand = none → l = s.biu.inputs[i].stable → inputs[i] = { s.biu.inputs[i] with raw := l }) ∧
          (s.biu.inputs[i].cand = none → l ≠ s.biu.inputs[i].stable →
            inputs[i] = { s.biu.inputs[i] with
              raw := l
              cand := some { tFirst := { et := at', dev := devOf s.tb.offset at' }, lastChange := at', bounces := 0 } }) ∧
          (∀ c, s.biu.inputs[i].cand = some c → l = s.biu.inputs[i].raw → inputs[i] = s.biu.inputs[i]) ∧
          (∀ c, s.biu.inputs[i].cand = some c → l ≠ s.biu.inputs[i].raw →
            inputs[i] = { s.biu.inputs[i] with
              raw := l, cand := some { c with lastChange := at', bounces := min 255 (c.bounces + 1) } }))

/-- At the sample at which a raw level has stood for Tdb since the candidate's last change, DEBOUNCE ACCEPT takes the new level,
or GLITCH rejects the candidate of a level that went back; CHATTER CLEAR ends the chattering of an input that has been quiet for
1,000,000 ticks. An accepted edge is published unless more than L edges fell in the last 1,000,000 ticks, or the input is
CHATTERING (R22 to R25). With SOE on the event is recorded, first of all that the edge or the clearing brings, RESYNC next after
CHATTER_END (R27, R28, R145; the model's choice, log 14), whose byte b is 0 by the model's choice, log 53. The edge that takes
the count above L makes the input CHATTERING: CHATTER_START is recorded with the count, and while RUNNING the CHATTER interval
opens with its IMPAIRMENT, or a full list sets the overflow mark (R24, R26, R71; the byte of a count of 256 is open, log 33).
Times, the state table and the run go on. While RUNNING an event meets the lowest LOCAL trigger that names it (R60, R61); at
ACTIVE it trips the breaker that names it as a trip source: the trip is counted, and each pole selected does as `PoleTripped`
says: it goes to OPENING, fails by the programme, or remembers the trip in CLOSING, unless it is numbered to fail on the pole,
and acts at once where its instant has come (R106 to R110, R115; the serial by which poles share a remembered trip is log 25's
deduction; logs 26 and 82, of the two counts of a correcting microsecond, are the model's choices there). It closes the breaker
that names it as a close source, each pole as `PoleCloses` says, or is refused with CLOSE_REFUSED (R111, R112, R116). An event
of a feedback input at ACTIVE parts the poles in OPENING, and at INACTIVE completes those in CLOSING, which then act on the
trips they remember, POLE_PARTED and POLE_CLOSED alone carrying its t_first (R115, R116; log 58). A failure raises BREAKER_FAULT
(R118). The records of an event's breakers stand in that order, BREAKER_OPEN and BREAKER_CLOSED last, where nothing else records
(R117, R145; the trip numbers and late flags are log 34's deduction). -/
def Obligations.DebounceAndChatterDecide : Prop :=
  ∀ (s : State) (i : Fin 16) (at' : Tick), s.pins.resetN = true → s.now.sampled = some at' →
    (∀ c, s.biu.inputs[i].cand = some c → s.biu.inputs[i].cfg.tdb ≤ (at' - c.lastChange).toNat →
      (s.biu.inputs[i].raw ≠ s.biu.inputs[i].stable →
        ∃ (t : State) (edges : List Tick) (publish : Bool),
          edges = (s.biu.inputs[i].edges ++ [at']).filter (fun e => decide ((at' - e).toNat < 1000000)) ∧
          (publish = true ↔ s.biu.inputs[i].cfg.limit = 0 ∨
            s.biu.inputs[i].chattering = false ∧ edges.length ≤ s.biu.inputs[i].cfg.limit) ∧
          exec (.debounceAccept i) s = .next t ∧ s.SameBase t ∧ s.SameRun t ∧
          t.biu = { s.biu with
            inputs := upd s.biu.inputs i { s.biu.inputs[i] with
              stable := s.biu.inputs[i].raw, cand := none, edges := edges, lastEdge := some at'
              published := if publish then s.biu.inputs[i].raw else s.biu.inputs[i].published
              chattering := s.biu.inputs[i].chattering || !publish }
            driven := t.biu.driven } ∧
          (s.biu.inputs[i].cfg.soe = true → publish = true →
            ∃ more, s.RecordedAll (.inputEvent .edge i s.biu.inputs[i].raw c.bounces c.tFirst.et
              (min 65535 (at' - c.tFirst.et).toNat) :: more) t) ∧
          (publish = false → s.biu.inputs[i].chattering = true → t.sq = s.sq ∧ t.rs = s.rs) ∧
          (publish = false → s.biu.inputs[i].chattering = false → ∀ (opens : Bool) (count : Nat),
            (opens = true ↔ s.running = true ∧ openInterval s.sq.impairments .chatter (some i.val) = false ∧
              s.sq.impairments.length < 32) →
            (edges.length ≤ 255 → count = edges.length) → (255 < edges.length → count = Config.longCount edges.length % 256) →
            t.sq = { s.sq with
              impairments := s.sq.impairments ++
                if opens then [{ kind := .chatter, subject := some i.val, start := at', stop := none }] else []
              overflow := s.sq.overflow || (s.running && !openInterval s.sq.impairments .chatter (some i.val) && !opens) } ∧
            s.RecordedAll
              ((if s.biu.inputs[i].cfg.soe then [.inputEvent .chatterStart i s.biu.inputs[i].raw count at' 0] else []) ++
                if opens then [.impairment .chatter (some i.val) (s.stampAt at')] else []) t)) ∧
      (s.biu.inputs[i].raw = s.biu.inputs[i].stable →
        (s.biu.inputs[i].cfg.soe = false → exec (.glitch i) s = .next { s with biu := { s.biu with
          inputs := upd s.biu.inputs i { s.biu.inputs[i] with cand := none } } }) ∧
        (s.biu.inputs[i].cfg.soe = true → exec (.glitch i) s = .next (State.commit
          { s with biu := { s.biu with inputs := upd s.biu.inputs i { s.biu.inputs[i] with cand := none } } }
          (.glitch i s.biu.inputs[i].stable.opp c.bounces c.tFirst.et at'))))) ∧
    (∀ e, s.biu.inputs[i].chattering = true → s.biu.inputs[i].lastEdge = some e → 1000000 ≤ (at' - e).toNat →
      (∀ c, s.biu.inputs[i].cand = some c → s.biu.inputs[i].raw ≠ s.biu.inputs[i].stable →
        (at' - c.lastChange).toNat < s.biu.inputs[i].cfg.tdb) →
      ∃ t, exec (.chatterClear i) s = .next t ∧ s.SameBase t ∧ s.SameRun t ∧
        openInterval t.sq.impairments .chatter (some i.val) = false ∧
        t.biu = { s.biu with
          inputs := upd s.biu.inputs i { s.biu.inputs[i] with
            chattering := false, edges := [], lastEdge := none, published := s.biu.inputs[i].stable }
          driven := t.biu.driven } ∧
        (s.biu.inputs[i].cfg.soe = true →
          (s.biu.inputs[i].stable = s.biu.inputs[i].published →
            s.Recorded (.inputEvent .chatterEnd i s.biu.inputs[i].stable 0 at' 0) t) ∧
          (s.biu.inputs[i].stable ≠ s.biu.inputs[i].published →
            ∃ more, s.RecordedAll (.inputEvent .chatterEnd i s.biu.inputs[i].stable 0 at' 0 ::
              .inputEvent .resync i s.biu.inputs[i].stable 0 at' 0 :: more) t))) ∧
    (∀ c l, s.biu.inputs[i].cand = some c → s.biu.inputs[i].cfg.tdb ≤ (at' - c.lastChange).toNat →
      l = s.biu.inputs[i].raw → l ≠ s.biu.inputs[i].stable → s.biu.inputs[i].cfg.limit = 0 → s.running = true →
      (∀ n tr, s.Lowest (.input i l) n tr → tr.mode = .alone → s.MayExit →
        ∃ t, exec (.debounceAccept i) s = .next t ∧
          t.sq.pendingTr = some { target := tr.target, cause := .trigger n, boundary := s.exitBoundary }) ∧
      (∀ k : Fin 4, l = .active → (∀ j : Fin 4, s.bs.breakers[j].cfg.mode ≠ .feedback i) →
        (∀ x, s.bs.TripsOnly k (.localInput i) x →
          ∃ t brings, exec (.debounceAccept i) s = .next t ∧ s.TripTaken k x.poles c.tFirst.et at' brings t ∧
            (s.Quiet → s.biu.inputs[i].cfg.soe = false → s.RecordedAll brings t)) ∧
        (s.bs.ClosesOnly k (.localInput i) →
          (s.bs.RemembersSound → polesAllOpen s.bs.breakers[k].poles = true →
            (∀ y ∈ s.bs.breakers[k].cfg.trips, s.sourceActive y.source = false) →
            ∃ t brings, exec (.debounceAccept i) s = .next t ∧ s.CloseTaken k c.tFirst.et at' brings t ∧
              (s.Quiet → s.biu.inputs[i].cfg.soe = false → s.RecordedAll brings t)) ∧
          (∀ reason, s.RefusesClose k reason →
            ∃ t, exec (.debounceAccept i) s = .next t ∧ t.bs = s.bs ∧
              (s.Quiet → s.biu.inputs[i].cfg.soe = false → s.Recorded (refusedRecord k at' reason) t)))) ∧
      (∀ k : Fin 4, s.bs.breakers[k].cfg.mode = .feedback i → (∀ j, j ≠ k → s.bs.breakers[j].cfg.mode ≠ .feedback i) →
        (∀ j : Fin 4, Source.localInput i ∉ s.bs.breakers[j].cfg.closes ∧
          ∀ y ∈ s.bs.breakers[j].cfg.trips, y.source ≠ .localInput i) → s.bs.Sound →
        (l = .active → ∀ moves : List (Fin 3),
          moves = (List.finRange 3).filter (fun p => s.bs.breakers[k].poles[p].state = .opening) →
          ∃ t, exec (.debounceAccept i) s = .next t ∧ (∀ j, j ≠ k → t.bs.breakers[j] = s.bs.breakers[j]) ∧
            t.bs.breakers[k] = { s.bs.breakers[k] with poles := t.bs.breakers[k].poles } ∧
            (∀ p : Fin 3, t.bs.breakers[k].poles[p] = if p ∈ moves then
                { s.bs.breakers[k].poles[p] with
                  state := if (s.bs.breakers[k].cfg.assoc[p]).isEmpty then .opened else .arcing, pending := none }
              else s.bs.breakers[k].poles[p]) ∧
            (∀ p ∈ moves, ∀ ch ∈ s.bs.breakers[k].cfg.assoc[p], s.ws.channels[ch].intr = .conducting →
              t.ws.channels[ch] = { s.ws.channels[ch] with intr := .watching 0 at' }) ∧
            (s.Quiet → s.biu.inputs[i].cfg.soe = false → s.RecordedAll
              (moves.flatMap (fun p => s.bs.breakers[k].partedRecords k p at' s.bs.breakers[k].poles[p].opTrip
                  s.bs.breakers[k].poles[p].late (some c.tFirst.et)) ++
                if moves ≠ [] ∧ ∀ p : Fin 3, t.bs.breakers[k].poles[p].state = .opened then
                  [breakerRecord k none .breakerOpen at' (moves.getLast?.bind (fun p => s.bs.breakers[k].poles[p].opTrip))
                    false none] else []) t)) ∧
        (l = .inactive → ∀ moves : List (Fin 3),
          moves = (List.finRange 3).filter (fun p => s.bs.breakers[k].poles[p].state = .closing) →
          ∃ t, exec (.debounceAccept i) s = .next t ∧ (∀ j, j ≠ k → t.bs.breakers[j] = s.bs.breakers[j]) ∧
            (∀ p ∈ moves, ∀ ch ∈ s.bs.breakers[k].cfg.assoc[p], s.ws.channels[ch].intr = .interrupted →
              t.ws.channels[ch].resume = true) ∧
            (∃ b0 b1 b2 b3 : Breaker, t.bs.breakers[k] = b3 ∧ b0 = { s.bs.breakers[k] with poles := b0.poles } ∧
              (∀ p : Fin 3, b0.poles[p] = if p ∈ moves then
                { s.bs.breakers[k].poles[p] with state := .closed, pending := none } else s.bs.breakers[k].poles[p]) ∧
              (0 ∈ moves → b0.ActsOn 0 at' b1) ∧ (0 ∉ moves → b1 = b0) ∧ (1 ∈ moves → b1.ActsOn 1 at' b2) ∧
              (1 ∉ moves → b2 = b1) ∧ (2 ∈ moves → b2.ActsOn 2 at' b3) ∧ (2 ∉ moves → b3 = b2)) ∧
            (s.Quiet → s.biu.inputs[i].cfg.soe = false → s.RecordedAll
              (moves.map (fun p => breakerRecord k (some p) .poleClosed at' none s.bs.breakers[k].poles[p].late
                  (some c.tFirst.et)) ++
                if moves ≠ [] ∧ ∀ p : Fin 3, p ∈ moves ∨ s.bs.breakers[k].poles[p].state = .closed then
                  [breakerRecord k none .breakerClosed at' none false none] else []) t))))

/-! ### The state table -/

/-- WRITE STATE is judged in order: the port may write (else NOT_OWNER), the slot is not the active one (else ACTIVE), every
field is in its range (else BAD_FIELD). Taken, it replaces the slot alone with the record given, every magnitude brought down to
its channel's hardware maximum and the reply CLAMPED naming those it changed; a record without setpoints, an END record, is
answered OK (R35 to R46). Fields pass the check just when, once the magnitudes are brought down, they give a record in the
ranges of R37 to R41 whose PEER triggers have mode LOCAL and whose RAMP_DONE triggers stand in a RAMP record (R40, R43). -/
def Obligations.WriteStateReplacesTheSlot : Prop :=
  (∀ (a : RecordArg) (r : StateRecord), checkRecord a = .ok r ↔ r.Sound ∧ r.Admitted ∧
    r.asArg = { a with setpoints := a.setpoints.map (fun v => v.mapFinIdx (fun c x _ =>
      { x with mag := min x.mag (if c < 6 then 320000 else 300000) })) }) ∧
  ∀ (s : State) (p : Port) (tag : Byte) (slot : Nat) (a : RecordArg), s.Takes p →
    ((s.sq.runState = .armed ∨ s.running = true) → s.sq.owner ≠ some p →
      exec (.writeState p tag slot a) s = .next (s.replied p tag .notOwner .empty)) ∧
    (s.sq.runState = .idle ∨ s.sq.runState = .inhibited ∨ s.sq.owner = some p →
      ((s.running = true ∧ ∃ k, s.sq.active = some k ∧ k.val = slot) →
        exec (.writeState p tag slot a) s = .next (s.replied p tag .active .empty)) ∧
      (¬(s.running = true ∧ ∃ k, s.sq.active = some k ∧ k.val = slot) →
        (64 ≤ slot → ∃ pos, exec (.writeState p tag slot a) s = .next (s.replied p tag .badField (.fieldPos pos))) ∧
        (∀ pos, slot < 64 → checkRecord a = .error pos →
          exec (.writeState p tag slot a) s = .next (s.replied p tag .badField (.fieldPos pos))) ∧
        (∀ (k : Fin 64) (r : StateRecord), k.val = slot → checkRecord a = .ok r →
          ∃ clamps : BitVec 10, (a.setpoints = none → clamps = 0) ∧
            (clamps = 0 → exec (.writeState p tag slot a) s =
              .next (State.replied { s with st := { slots := upd s.st.slots k (some r) } } p tag .ok .empty)) ∧
            (clamps ≠ 0 → exec (.writeState p tag slot a) s =
              .next (State.replied { s with st := { slots := upd s.st.slots k (some r) } } p tag .clamped (.clamped clamps))) ∧
            (∀ v, a.setpoints = some v → ∀ c : Fin 10,
              (inSet clamps c.val = true ↔ (if c.val < 6 then 320000 else 300000) < (v[c]).mag) ∧
              ∀ b, r.live = some b →
                b.setpoints[c] = { mag := min (v[c]).mag (if c.val < 6 then 320000 else 300000), angle := (v[c]).angle,
                                   freq := (v[c]).freq, tau := (v[c]).tau }))))

/-- R45: CLEAR STATE makes a slot EMPTY, judged by the first two checks of R42 and then by the slot number; a run that enters the
slot afterwards meets EMPTY_SLOT; no record is committed and no notice raised. -/
def Obligations.ClearStateEmptiesTheSlot : Prop :=
  ∀ (s : State) (p : Port) (tag : Byte) (slot : Nat), s.Takes p →
    ((s.sq.runState = .armed ∨ s.running = true) → s.sq.owner ≠ some p →
      exec (.clearState p tag slot) s = .next (s.replied p tag .notOwner .empty)) ∧
    (s.sq.runState = .idle ∨ s.sq.runState = .inhibited ∨ s.sq.owner = some p →
      ((s.running = true ∧ ∃ k, s.sq.active = some k ∧ k.val = slot) →
        exec (.clearState p tag slot) s = .next (s.replied p tag .active .empty)) ∧
      (¬(s.running = true ∧ ∃ k, s.sq.active = some k ∧ k.val = slot) →
        (64 ≤ slot → exec (.clearState p tag slot) s = .next (s.replied p tag .badField .empty)) ∧
        (∀ k : Fin 64, k.val = slot →
          exec (.clearState p tag slot) s =
            .next (State.replied { s with st := { slots := upd s.st.slots k none } } p tag .ok .empty) ∧
          State.entryCheck (State.replied { s with st := { slots := upd s.st.slots k none } } p tag .ok .empty) k =
            some (.emptySlot, none))))

/-- R47: READ STATE answers the slot's contents as stored and whether it is the active slot of a RUNNING run, refuses a number
outside 0..63, and changes nothing; with a WRITE STATE of the slot just before it, it answers the old record or the new one
whole. -/
def Obligations.ReadStateAnswersTheSlot : Prop :=
  ∀ (s : State) (p : Port) (tag : Byte), s.Takes p →
    (∀ slot, 64 ≤ slot → exec (.readState p tag slot) s = .next (s.replied p tag .badField .empty)) ∧
    (∀ k : Fin 64, exec (.readState p tag k.val) s =
      .next (s.replied p tag .ok (.slot s.st.slots[k] (decide (s.running = true ∧ s.sq.active = some k))))) ∧
    (∀ (q : Port) (tag' : Byte) (k : Fin 64) (a : RecordArg) (u : State), exec (.writeState q tag' k.val a) s = .next u →
      u.Takes p →
      exec (.readState p tag k.val) u =
        .next (u.replied p tag .ok (.slot u.st.slots[k] (decide (u.running = true ∧ u.sq.active = some k)))) ∧
      (u.st.slots[k] = s.st.slots[k] ∨ ∃ r, checkRecord a = .ok r ∧ u.st.slots[k] = some r))

/-! ### The synthesizer and the sample link -/

/-- DECLARE CHANNEL and SET CALIBRATION belong to the amplifier port. A declaration in range replaces the channel's own and
raises CHANNEL_STATE where it changed it; FAULT in a RUNNING run also forces the channel and opens its CHANNEL_FAULT interval with
its IMPAIRMENT record, or finds it open, or sets the overflow mark of a full list. A
status code other than READY and FAULT is refused. A calibration is refused while RUNNING (R76, R77, R79). -/
def Obligations.DeclarationsAndCalibration : Prop :=
  ∀ (s : State) (tag : Byte),
    (s.Takes .cp → (∀ n d, exec (.declareChannel .cp tag n d) s = .next (s.replied .cp tag .portRole .empty)) ∧
      ∀ a, exec (.setCalibration .cp tag a) s = .next (s.replied .cp tag .portRole .empty)) ∧
    (s.Takes .ap →
      (∀ n d, 10 ≤ n → exec (.declareChannel .ap tag n d) s = .next (s.replied .ap tag .badField .empty)) ∧
      (∀ (c : Fin 10) (m : Nat), (if c.val < 6 then 320000 else 300000) < m →
        exec (.declareChannel .ap tag c.val (.ready m)) s = .next (s.replied .ap tag .badField .empty)) ∧
      (∀ n code, exec (.declareChannel .ap tag n (.other code)) s = .next (s.replied .ap tag .badField .empty)) ∧
      (∀ (c : Fin 10) (d : DeclArg) (e : Declaration),
        (d = .fault ∧ e = .fault ∧ s.running = false ∨
          ∃ m, d = .ready m ∧ e = .ready m ∧ m ≤ if c.val < 6 then 320000 else 300000) →
        exec (.declareChannel .ap tag c.val d) s = .next (State.replied
          (if s.ws.channels[c].decl = e then s
            else State.raise
              { s with ws := { s.ws with channels := upd s.ws.channels c { s.ws.channels[c] with decl := e } } }
              (.channelState c e s.ws.channels[c].forced)) .ap tag .ok .empty)) ∧
      (∀ c : Fin 10, s.running = true →
        ∃ t, exec (.declareChannel .ap tag c.val .fault) s = .next t ∧ s.Answered .ap tag .ok .empty t ∧ s.SameRun t ∧
          t.ws = { s.ws with channels := upd s.ws.channels c { s.ws.channels[c] with decl := .fault, forced := true } } ∧
          (openInterval t.sq.impairments .channelFault (some c.val) = true ∨ t.sq.overflow = true) ∧
          (openInterval s.sq.impairments .channelFault (some c.val) = false → s.sq.impairments.length < 32 →
            s.Recorded (.impairment .channelFault (some c.val) s.stamp) t) ∧
          (openInterval s.sq.impairments .channelFault (some c.val) = true ∨ 32 ≤ s.sq.impairments.length → t.rs = s.rs) ∧
          (s.ws.channels[c].decl ≠ .fault → t.Notified s.notices.routes[3] (.channelState c .fault true)) ∧
          t.tb = s.tb ∧ t.biu = s.biu ∧ t.st = s.st ∧ t.bs = s.bs ∧ t.mu = s.mu ∧ t.pr = s.pr ∧ t.pins = s.pins ∧
          t.out = s.out ∧ t.pending = s.pending) ∧
      (s.running = true → ∀ a, exec (.setCalibration .ap tag a) s = .next (s.replied .ap tag .state .empty)) ∧
      (s.running = false → ∀ a : CalArgs,
        (10 ≤ a.channel ∨ 20000 < a.gain.natAbs ∨ 50 < a.phaseTrim.natAbs ∨ 1000 < a.offset.natAbs →
          exec (.setCalibration .ap tag a) s = .next (s.replied .ap tag .badField .empty)) ∧
        (∀ c : Fin 10, a.channel = c.val → a.gain.natAbs ≤ 20000 → a.phaseTrim.natAbs ≤ 50 → a.offset.natAbs ≤ 1000 →
          exec (.setCalibration .ap tag a) s = .next (State.replied
            { s with ws := { s.ws with
              channels := upd s.ws.channels c
                { s.ws.channels[c] with gain := a.gain, phaseTrim := a.phaseTrim, offset := a.offset } } }
            .ap tag .ok .empty))))

/-- Outside a RUNNING run, an ARMED one at no start included, a frame boundary advances R once, whatever it had already done at
this boundary, takes the picture of READ CHANNELS (R99), and produces one frame of ten zero samples: kept with SLHOLD high, a
frame it replaces being counted; its turn to be delivered with SLHOLD low. A delivery takes the next frame number, and the fall
of SLHOLD delivers the frames whose turn had come (log 29), then the kept one marked held, and ends an open STREAM_SLIP and no
other interval (R80, R89, R96 to R98). A boundary that carries SLHOLD low while the pin stood high leaves the kept frame and the
intervals, the model's choice, log 79. That the picture shows the number of the last frame delivered before this boundary's own
is the model's choice, log 66. -/
def Obligations.FramesReachTheSampleLink : Prop :=
  ∀ s : State, s.pins.resetN = true →
    (∀ (b : Tick) (hold : Bool), s.boundaryNow = some b → (s.sq.runState = .idle ∨ s.sq.runState = .inhibited ∨
        s.sq.runState = .armed ∧ ∀ x, s.sq.startPending = some x → Tick.le x b = false) →
      s.pr.proposal.tc = none →
      ∃ (ref : Phase) (channels : Vector Channel 10) (f : SampleFrame),
        f = { seconds := BitVec.ofNat 16 (devSeconds (devOf s.tb.offset b)), micros := devMicros (devOf s.tb.offset b)
              runState := s.sq.runState, active := none, samples := Vector.replicate 10 0, pattern := s.biu.driven
              streamEnable := s.sq.streamEnable, run := if s.sq.runState = .armed then s.sq.lastRun else 0 } ∧
        ref = (if s.now.opened then s.ws.ref else s.ws.ref + s.ws.nominalInc) ∧
        (∀ c : Fin 10, s.ws.channels[c].resume = false → channels[c] = s.ws.channels[c]) ∧
        exec (.frameBoundary hold) s = .next { s with
          pins := { s.pins with slhold := hold }, now := { s.now with opened := true, boundary := true }
          ws := { s.ws with
            ref := ref, channels := channels
            linkQueue := if hold then s.ws.linkQueue else s.ws.linkQueue ++ [f]
            kept := if hold then some f else s.ws.kept
            replaced := if hold && s.ws.kept.isSome then s.ws.replaced + 1 else s.ws.replaced
            shown := { channels := channels.map Channel.picture, ramp := s.ws.ramp, ref := ref, nominalInc := s.ws.nominalInc
                       slhold := hold, kept := hold || s.ws.kept.isSome, lastFrame := s.ws.lastFrame
                       replaced := if hold && s.ws.kept.isSome then s.ws.replaced + 1 else s.ws.replaced } } }) ∧
    (∀ n : BitVec 16, (n = match s.ws.lastFrame with
        | some m => m + 1
        | none => 0) →
      (∀ f rest, s.ws.linkQueue = f :: rest →
        exec .sampleFrameDelivery s = .next { s with
          ws := { s.ws with linkQueue := rest, lastFrame := some n }
          out := { s.out with link := s.out.link ++ [{ number := n, held := false, frame := f }] } }) ∧
      ∃ frames : List DeliveredFrame,
        frames = (s.ws.linkQueue.map (fun f => (false, f)) ++ s.ws.kept.toList.map (fun f => (true, f))).mapIdx
          (fun i x => { number := n + BitVec.ofNat 16 i, held := x.1, frame := x.2 }) ∧
        exec .slholdRelease s = .next { s with
          pins := { s.pins with slhold := false }
          ws := { s.ws with
            kept := none, linkQueue := []
            lastFrame := if frames = [] then s.ws.lastFrame else some (n + BitVec.ofNat 16 (frames.length - 1)) }
          out := { s.out with link := s.out.link ++ frames }
          sq := { s.sq with impairments := s.sq.impairments.map (fun i =>
            if i.kind = .streamSlip ∧ i.subject = none ∧ i.stop = none then { i with stop := some s.tb.et } else i) } })

/-- A boundary of a RUNNING run at which no entry, limit or step is due produces the run's samples. A conducting channel gives A
cos(P + φ) plus its DC term, with the gain and the offset applied and the result brought into 20 bits; its DC term decays and
its accumulator turns. A forced channel gives the offset alone, its DC term 0, and is watched and interrupted as any other by
the sample it would have given (R85 to R88, R96). A WATCHING channel is interrupted at a sample of 0, at a change of sign, or at
its 200th frame (R93, R94); an INTERRUPTED one gives the offset alone; a resuming one conducts again, its DC term set so that it
starts from 0 (R95); that where the microsecond skips a count the parting is ordered by its count, and the completion not at
all, is the model's choice, log 82. A channel that begins to saturate opens SATURATION, and one that ceases closes it (R72,
R87). With SLHOLD low the frame's turn to be delivered comes; with SLHOLD high it is kept, and the kept frame that it replaces
is counted and, if this run produced it while RUNNING, opens STREAM_SLIP with its IMPAIRMENT (R71, R97, R98); that a frame of an
earlier run opens none is the model's choice, log 77, and that a boundary which lowers the pin leaves the kept frame log 79.
Times, table and inputs stay, and READ CHANNELS shows what stands after the frame (R99); that it shows it before the frame is
delivered is the model's choice, log 66, and that a forced handover waits in the channel for its own row the model's deduction,
log 28. -/
def Obligations.ARunningFrameCarriesTheSamples : Prop :=
  ∀ (s : State) (b : Tick) (hold : Bool), s.AtBoundary b → s.running = true → s.sq.streamEnable = true →
    s.pr.proposal.tc = none → s.sq.heldDue = none → s.sq.pendingTr = none → s.limitDue b = none → s.dwellDue b = none →
    ∃ (t : State) (f : SampleFrame), exec (.frameBoundary hold) s = .next t ∧
      t.tb = s.tb ∧ t.st = s.st ∧ t.ports = s.ports ∧ t.pending = s.pending ∧ t.pins = { s.pins with slhold := hold } ∧
      s.SameRun t ∧ t.biu = { s.biu with driven := t.biu.driven } ∧
      t.ws.linkQueue = (if hold then s.ws.linkQueue else s.ws.linkQueue ++ [f]) ∧
      t.ws.kept = (if hold then some f else s.ws.kept) ∧
      t.ws.replaced = (if hold && s.ws.kept.isSome then s.ws.replaced + 1 else s.ws.replaced) ∧
      (∀ slips opens : Bool,
        (slips = true ↔ hold = true ∧ ∃ old, s.ws.kept = some old ∧ old.runState = .running ∧ old.run = s.runNumber) →
        (opens = true ↔ slips = true ∧ openInterval s.sq.impairments .streamSlip none = false ∧ s.sq.impairments.length < 32) →
        (slips = true → openInterval t.sq.impairments .streamSlip none = true ∨ t.sq.overflow = true) ∧
        (slips = false → openInterval t.sq.impairments .streamSlip none = openInterval s.sq.impairments .streamSlip none) ∧
        ((∀ c : Fin 10, t.ws.channels[c].saturated = s.ws.channels[c].saturated) →
          t.sq.impairments = s.sq.impairments ++
            (if opens then [{ kind := .streamSlip, subject := none, start := b, stop := none }] else []) ∧
          t.sq.overflow = (s.sq.overflow || (slips && !openInterval s.sq.impairments .streamSlip none && !opens)) ∧
          (opens = true → ∃ before more, (s.mu.waiting = [] → before = []) ∧
            s.RecordedAll (before ++ .impairment .streamSlip none (s.stampAt b) :: more) t))) ∧
      f.runState = .running ∧ f.active = s.sq.active ∧ f.streamEnable = true ∧
      f.pattern = s.biu.driven ∧ f.run = s.sq.lastRun ∧ t.ws.shown = t.channelsPicture ∧ f.micros = devMicros (devOf s.tb.offset b) ∧
      ∀ c : Fin 10, f.samples[c] = t.ws.channels[c].outLast ∧
        (s.ws.channels[c].saturated = false → t.ws.channels[c].saturated = true →
          openInterval t.sq.impairments .saturation (some c.val) = true ∨ t.sq.overflow = true) ∧
        (s.ws.channels[c].saturated = true → t.ws.channels[c].saturated = false →
          openInterval t.sq.impairments .saturation (some c.val) = false) ∧
        (s.ws.channels[c].forced = true →
          t.ws.channels[c].outLast = clampInt s.ws.channels[c].offset (-524287) 524287) ∧
        (s.ws.channels[c].forced = false → s.ws.channels[c].intr = .conducting → s.ws.channels[c].resume = false →
          s.ws.channels[c].handover = none →
          ∀ u raw : Int,
            u = roundDiv (s.ws.channels[c].amp * cosTable ((s.ws.channels[c].acc + s.ws.channels[c].phi).toNat / 4096))
                  4194304 + s.ws.channels[c].dc →
            raw = roundDiv (u * (1000000 + s.ws.channels[c].gain)) 1000000 + s.ws.channels[c].offset →
            t.ws.channels[c] = { s.ws.channels[c] with
              dc := Int.tdiv (s.ws.channels[c].dc * s.ws.channels[c].kq) 16777216
              sLast := u, uncutLast := u
              outLast := max (-524287) (min 524287 raw)
              saturated := decide (raw < -524287 ∨ 524287 < raw)
              acc := s.ws.channels[c].acc + s.ws.channels[c].inc }) ∧
        (s.ws.channels[c].handover = none →
          ∀ u y d : Int, u = s.ws.channels[c].wave + s.ws.channels[c].dc →
            (s.ws.channels[c].forced = false ∧ y = u ∧ d = s.ws.channels[c].dc ∨
              s.ws.channels[c].forced = true ∧ y = 0 ∧ d = 0) →
            (s.ws.channels[c].intr = .conducting → s.ws.channels[c].resume = false →
              t.ws.channels[c] = s.ws.channels[c].framed u y d) ∧
            (s.ws.channels[c].intr = .interrupted → s.ws.channels[c].resume = false →
              t.ws.channels[c] = s.ws.channels[c].framed u 0 0) ∧
            (∀ n since, s.ws.channels[c].intr = .watching n since → s.ws.channels[c].resume = false →
              (Tick.lt since b = false → t.ws.channels[c] = s.ws.channels[c].framed u y d) ∧
              (Tick.lt since b = true → ∀ crossed : Prop,
                (crossed ↔ u = 0 ∨ 0 < u ∧ s.ws.channels[c].uncutLast < 0 ∨ u < 0 ∧ 0 < s.ws.channels[c].uncutLast) →
                (crossed → t.ws.channels[c] = Channel.framed { s.ws.channels[c] with intr := .interrupted } u 0 0) ∧
                (¬crossed → n + 1 < 200 →
                  t.ws.channels[c] = Channel.framed { s.ws.channels[c] with intr := .watching (n + 1) since } u y d) ∧
                (¬crossed → 200 ≤ n + 1 →
                  t.ws.channels[c] = Channel.framed
                    { s.ws.channels[c] with intr := .interrupted, handover := some (.forced b) } u 0 0))) ∧
            (∀ body, s.ws.channels[c].intr = .interrupted → s.ws.channels[c].resume = true → s.activeBody = some body →
              ((body.setpoints[c]).tau = none →
                t.ws.channels[c] = Channel.framed { s.ws.channels[c] with intr := .conducting, resume := false }
                  s.ws.channels[c].wave (if s.ws.channels[c].forced then 0 else s.ws.channels[c].wave) 0) ∧
              (∀ tau, (body.setpoints[c]).tau = some tau →
                t.ws.channels[c] = Channel.framed
                  { s.ws.channels[c] with intr := .conducting, resume := false, kq := decayFactor tau }
                  (if s.ws.channels[c].forced then s.ws.channels[c].wave else 0) 0
                  (if s.ws.channels[c].forced then 0 else -s.ws.channels[c].wave))))

/-- A dwell instant of a RUNNING ramp steps its quantity by Δ on every masked channel that is not forced: a magnitude is brought
into 0..its declared maximum, a frequency into 5,000..1,000,000, an angle is folded; each feeds what R92 names and nothing else.
A held ramp only passes the instant (R90 to R92, R64). The ramp ends at its last step and at one
that brings any channel into its range, an angle folded being one brought into its range (R91; the model's deduction, log 40); a
RAMP_DONE trigger is then met for the boundary after (R60, R61). A VALUE measurement that waits or times takes a changed setpoint
into its history of at most 64 (R130). -/
def Obligations.RampStepMovesTheMaskedChannels : Prop :=
  ∀ (s : State) (b : Tick) (r : RampSpec) (q : RampProgress), s.AtBoundary b → s.dwellDue b = some (r, q) →
    ∃ t, exec .rampStep s = .next t ∧ s.SameBase t ∧ s.SameRun t ∧ t.biu = s.biu ∧ t.bs = s.bs ∧
      (s.sq.pendingTr.isSome = true ∨ s.pr.holds = true ∨ s.sq.held.isSome = true →
        t.ws.ramp = some { q with next := q.next + BitVec.ofNat 48 r.dwell } ∧ t.ws.channels = s.ws.channels ∧
        t.sq = s.sq ∧ t.mu = s.mu) ∧
      (s.sq.pendingTr = none → s.pr.holds = false → s.sq.held = none →
        (∃ e : Bool, t.ws.ramp = some { steps := q.steps + 1, next := q.next + BitVec.ofNat 48 r.dwell, ended := e } ∧
          (e = true ↔ q.steps + 1 = r.maxSteps ∨ ∃ c : Fin 10, inSet r.mask c.val = true ∧ s.ws.channels[c].forced = false ∧
            match r.quantity with
            | .magnitude => (s.ws.channels[c].mag : Int) + r.delta < 0 ∨
                ((s.ws.channels[c].decl.maximum.getD 0 : Nat) : Int) < (s.ws.channels[c].mag : Int) + r.delta
            | .angle => s.ws.channels[c].angle + r.delta < -18000 ∨ 17999 < s.ws.channels[c].angle + r.delta
            | .frequency => (s.ws.channels[c].freq : Int) + r.delta < 5000 ∨ 1000000 < (s.ws.channels[c].freq : Int) + r.delta) ∧
          (e = false → t.sq = s.sq) ∧
          ((∀ tr ∈ s.triggers, tr.cond ≠ .rampDone) → t.sq = s.sq) ∧
          (∀ n tr, e = true → s.sq.heldDue = none → s.Lowest .rampDone n tr → tr.mode = .alone →
            t.sq = { s.sq with
              pendingTr := some { target := tr.target, cause := .trigger n, boundary := s.boundaryAfter b } })) ∧
        (∀ (m : Fin 32) (d : MeasDef), s.mu.meas[m].definition = some d →
          (s.mu.meas[m].live = .waitingStart ∨ s.mu.meas[m].live = .timing) →
          ∀ c y expected tol rel, d.kind = .value c y expected tol rel → ∀ v : Int, v = t.ws.channels[c].quantity y →
            t.mu.meas[m] =
              if v = (s.mu.meas[m].history.getLast?.map Prod.snd).getD 0 then s.mu.meas[m]
              else if s.mu.meas[m].history.length < 64 then
                { s.mu.meas[m] with history := s.mu.meas[m].history ++ [(b, v)] }
              else { s.mu.meas[m] with history := s.mu.meas[m].history.tail ++ [(b, v)], truncated := true }) ∧
        ∀ c : Fin 10,
          ((inSet r.mask c.val = false ∨ s.ws.channels[c].forced = true) → t.ws.channels[c] = s.ws.channels[c]) ∧
          (inSet r.mask c.val = true → s.ws.channels[c].forced = false →
            (r.quantity = .magnitude → ∀ m : Nat,
              (m : Int) = max 0 (min ((s.ws.channels[c].decl.maximum.getD 0 : Nat) : Int) ((s.ws.channels[c].mag : Int) + r.delta)) →
              t.ws.channels[c] = { s.ws.channels[c] with mag := m, amp := amplitude m }) ∧
            (r.quantity = .angle → ∀ a : Int,
              (a = s.ws.channels[c].angle + r.delta ∧ -18000 ≤ a ∧ a ≤ 17999 ∨
                a = s.ws.channels[c].angle + r.delta + 36000 ∧ s.ws.channels[c].angle + r.delta < -18000 ∨
                a = s.ws.channels[c].angle + r.delta - 36000 ∧ 17999 < s.ws.channels[c].angle + r.delta) →
              t.ws.channels[c] = { s.ws.channels[c] with angle := a, phi := phaseOffset a s.ws.channels[c].phaseTrim }) ∧
            (r.quantity = .frequency → ∀ f : Nat,
              (f : Int) = max 5000 (min 1000000 ((s.ws.channels[c].freq : Int) + r.delta)) →
              t.ws.channels[c] = { s.ws.channels[c] with freq := f, inc := increment f })))

/-! ### The breakers and the measurements -/

/-- CONFIGURE BREAKER and DEFINE MEASUREMENT are taken in IDLE with fields that pass their checks. A breaker takes the whole
configuration given, which must lie in its ranges and clash with none, and keeps its live state, its aux functions moving to the
outputs named; a measurement takes the definition given, and its last result is cleared (R102, R103, R123). That outside IDLE both
are answered STATE whatever their fields hold, one out of range too, is the model's choice, log 11. That a field of
DEFINE MEASUREMENT which its kind does not use is judged too where it is present is the model's deduction, log 47. -/
def Obligations.BreakerAndMeasurementConfiguration : Prop :=
  ∀ (s : State) (p : Port) (tag : Byte), s.Takes p →
    (s.sq.runState ≠ .idle →
      (∀ a, exec (.configureBreaker p tag a) s = .next (s.replied p tag .state .empty)) ∧
      ∀ a, exec (.defineMeasurement p tag a) s = .next (s.replied p tag .state .empty)) ∧
    (s.sq.runState = .idle →
      (∀ a, s.checkBreaker a = none → exec (.configureBreaker p tag a) s = .next (s.replied p tag .badField .empty)) ∧
      (∀ a k c oa ob, s.checkBreaker a = some (k, c, oa, ob) ↔ c.GivenBy a k oa ob ∧ s.Admits k c oa ob) ∧
      (∀ a k c oa ob, s.checkBreaker a = some (k, c, oa, ob) →
        ∃ (fs : Vector OutputFunc 8) (d : BitVec 8),
          exec (.configureBreaker p tag a) s = .next (State.replied
            { s with
              bs := { breakers := upd s.bs.breakers k { s.bs.breakers[k] with cfg := c } }
              biu := { s.biu with funcs := fs, driven := d } } p tag .ok .empty) ∧
          ∀ n : Fin 8,
            (ob = some n → fs[n] = .aux k true) ∧ (oa = some n → fs[n] = .aux k false) ∧
            (oa ≠ some n → ob ≠ some n →
              (∀ x, s.biu.funcs[n] = .aux k x → fs[n] = .sequence) ∧
              ((∀ x, s.biu.funcs[n] ≠ .aux k x) → fs[n] = s.biu.funcs[n])) ∧
            inSet d n.val = match fs[n] with
              | .sequence => inSet s.biu.rest n.val
              | .aux _ _ => false) ∧
      (∀ a, checkMeasurement a = none → exec (.defineMeasurement p tag a) s = .next (s.replied p tag .badField .empty)) ∧
      (∀ (m : Fin 32) (d : MeasDef), d.Sound → checkMeasurement (d.asArgs m) = some (m, some d)) ∧
      (∀ a m d, checkMeasurement a = some (m, d) →
        m.val = a.index ∧ (a.kind = 3 ↔ d = none) ∧ (∀ x, d = some x → x.Sound ∧ x.GivenBy a) ∧
        exec (.defineMeasurement p tag a) s = .next (State.replied
          { s with mu := { s.mu with meas := upd s.mu.meas m { s.mu.meas[m] with definition := d, live := .inactive, result := none } } }
          p tag .ok .empty)))

/-- At the parting instant that poles of a SIMULATED breaker share, each goes to ARCING, or to OPEN where it has no channel; at
their completion, they go to CLOSED, and then, A, B, C, each acts on a trip it remembers: counted if it was not, it opens the
pole again or fails on it (R106 to R109, R112; one row takes the poles of one instant, the model's choice, log 26, and poles
that remember one trip share its number by the deduction of log 25). A channel forced open after 200 frames is handed over:
FORCED_INTERRUPTION is published for its pole, which goes from ARCING to OPEN when its last channel has been handed over, and
BREAKER_OPEN follows the last pole (R94, R108, R117; that the handover waits in the channel for this row is the model's
deduction, log 28): poles open in the order A, B, C, so that one that is done waits for an earlier one whose forced interruption
is still to be handed over (R105, log 26). Of the records, the trip number and the clear late flag are log 34's deduction, and
that they carry no t_first of a feedback is log 58. BS's records stand before what the events bring elsewhere (R145, log 14).
The other poles and breakers and the run stay as they were. -/
def Obligations.PolesPartAndClose : Prop :=
  ∀ (s : State) (k : Fin 4) (at' : Tick) (sel : BitVec 3), s.pins.resetN = true →
    (s.duePoles k .opening false = some (at', sel) → s.running = true ∧ s.FallDue k .opening at' sel ∧
      ∃ t, exec (.poleParted k) s = .next t ∧ s.SameBase t ∧ s.SameRun t ∧ t.biu = { s.biu with driven := t.biu.driven } ∧
        (∀ j, j ≠ k → t.bs.breakers[j] = s.bs.breakers[j]) ∧
        t.bs.breakers[k] = { s.bs.breakers[k] with poles := t.bs.breakers[k].poles } ∧
        ∀ p : Fin 3,
          (inSet sel p.val = false → t.bs.breakers[k].poles[p] = s.bs.breakers[k].poles[p]) ∧
          (inSet sel p.val = true → t.bs.breakers[k].poles[p] = { s.bs.breakers[k].poles[p] with
            state := if (s.bs.breakers[k].cfg.assoc[p]).isEmpty then .opened else .arcing, pending := none }) ∧
          (inSet sel p.val = true → ∀ c ∈ s.bs.breakers[k].cfg.assoc[p],
            (∀ j : Fin 3, j ≠ p → c ∉ s.bs.breakers[k].cfg.assoc[j]) → s.ws.channels[c].intr = .conducting →
            t.ws.channels[c] = { s.ws.channels[c] with intr := .watching 0 at' })) ∧
    (s.duePoles k .closing false = some (at', sel) → s.running = true ∧ s.FallDue k .closing at' sel ∧
      (s.bs.Sound →
      ∃ t, exec (.poleClosed k) s = .next t ∧ s.SameBase t ∧ s.SameRun t ∧ t.biu = { s.biu with driven := t.biu.driven } ∧
        (∀ j, j ≠ k → t.bs.breakers[j] = s.bs.breakers[j]) ∧
        (∀ p : Fin 3, inSet sel p.val = true → ∀ c ∈ s.bs.breakers[k].cfg.assoc[p],
          s.ws.channels[c].intr = .interrupted → t.ws.channels[c].resume = true) ∧
        ∃ b0 b1 b2 b3 : Breaker, t.bs.breakers[k] = b3 ∧
          b0 = { s.bs.breakers[k] with poles := b0.poles } ∧
          (∀ p : Fin 3, b0.poles[p] = if inSet sel p.val then { s.bs.breakers[k].poles[p] with state := .closed, pending := none }
            else s.bs.breakers[k].poles[p]) ∧
          (inSet sel 0 = true → b0.ActsOn 0 at' b1) ∧ (inSet sel 0 = false → b1 = b0) ∧
          (inSet sel 1 = true → b1.ActsOn 1 at' b2) ∧ (inSet sel 1 = false → b2 = b1) ∧
          (inSet sel 2 = true → b2.ActsOn 2 at' b3) ∧ (inSet sel 2 = false → b3 = b2))) ∧
    (∀ c, s.forcedDue c = some at' →
      ∃ t, exec (.forcedInterruption c) s = .next t ∧ s.SameBase t ∧ s.SameRun t ∧
        t.biu = { s.biu with driven := t.biu.driven } ∧
        t.ws = { s.ws with channels := upd s.ws.channels c { s.ws.channels[c] with handover := none } } ∧
        (s.poleOf c = none → t.bs = s.bs ∧ t.rs = s.rs) ∧
        ∀ k' p, s.poleOf c = some (k', p) →
          c ∈ s.bs.breakers[k'].cfg.assoc[p] ∧
          (∀ j, j ≠ k' → t.bs.breakers[j] = s.bs.breakers[j]) ∧
          t.bs.breakers[k'] = { s.bs.breakers[k'] with poles := t.bs.breakers[k'].poles } ∧
          ∃ opens : Fin 3 → Bool,
            (∀ q : Fin 3, opens q = true ↔ s.bs.breakers[k'].poles[q].state = .arcing ∧
              (∀ d ∈ s.bs.breakers[k'].cfg.assoc[q],
                s.ws.channels[d].intr = .interrupted ∧ (d ≠ c → s.ws.channels[d].handover = none)) ∧
              ∀ r : Fin 3, r < q → ∀ d ∈ s.bs.breakers[k'].cfg.assoc[r], d ≠ c → ∀ b, s.ws.channels[d].handover ≠ some (.forced b)) ∧
            (∀ q : Fin 3, t.bs.breakers[k'].poles[q] = { s.bs.breakers[k'].poles[q] with
              state := if opens q then .opened else s.bs.breakers[k'].poles[q].state }) ∧
            ∀ (opened : List (Fin 3)) (event : Option (Fin 3) → BreakerEventKind → Option Nat → Option (Fin 10) → RecordBody),
              opened = (List.finRange 3).filter opens →
              (∀ q e n d, event q e n d = .breakerEvent
                { k := k', pole := q, kind := e, at' := at', trip := n, late := false, channel := d, reason := none
                  feedback := none }) →
              ∃ more, (s.Quiet → more = []) ∧ s.RecordedAll
                ([event (some p) .forcedInterruption s.bs.breakers[k'].poles[p].opTrip (some c)] ++
                  opened.map (fun q => event (some q) .poleOpen s.bs.breakers[k'].poles[q].opTrip none) ++
                  (if opened ≠ [] ∧ ∀ q, opens q = true ∨ s.bs.breakers[k'].poles[q].state = .opened then
                    [event none .breakerOpen (opened.getLast?.bind (fun q => s.bs.breakers[k'].poles[q].opTrip)) none]
                    else []) ++ more) t)

/-- A programmed failure that falls due is taken from its poles, whatever their state; at the deadline of a FEEDBACK breaker,
poles still OPENING go back to CLOSED, and poles still CLOSING go back to OPEN and forget a remembered trip. Each raises
BREAKER_FAULT on every port that its route names; the other poles and breakers, the counts and the run stay as they were (R109,
R115, R116, R118). The poles are those whose failure, or whose deadline in that state, falls due earliest on the breaker, at an
instant that has come; that one row takes the poles which share it, in the order A, B, C, up to the first that moves from another
state, is the model's choice, log 26. -/
def Obligations.PolesFail : Prop :=
  ∀ (s : State) (k : Fin 4) (at' : Tick) (sel : BitVec 3), s.pins.resetN = true →
    (s.dueFailures k = some (at', sel) → s.running = true ∧ sel ≠ 0 ∧ Tick.le at' s.tb.et = true ∧
      (∀ (p : Fin 3) f, s.bs.breakers[k].poles[p].failure = some f → Tick.le f.at' s.tb.et = true → Tick.lt f.at' at' = false) ∧
      ∀ p : Fin 3, inSet sel p.val = true ↔ ∃ f, s.bs.breakers[k].poles[p].failure = some f ∧ f.at' = at') ∧
    (∀ st, s.duePoles k st true = some (at', sel) →
      s.running = true ∧ s.bs.breakers[k].cfg.mode ≠ .simulated ∧ s.FallDue k st at' sel) ∧
    (∀ c f, (c = .failToOpen k ∧ s.dueFailures k = some (at', sel) ∧ f = (fun x : Pole => { x with failure := none }) ∨
        c = .openingDeadline k ∧ s.duePoles k .opening true = some (at', sel) ∧
          f = (fun x : Pole => { x with state := .closed, pending := none }) ∨
        c = .failToClose k ∧ s.duePoles k .closing true = some (at', sel) ∧
          f = (fun x : Pole => { x with state := .opened, pending := none, remembered := none })) →
      ∃ t, exec c s = .next t ∧ s.SameBase t ∧ s.SameRun t ∧ t.biu = { s.biu with driven := t.biu.driven } ∧ t.ws = s.ws ∧
        (∀ j, j ≠ k → t.bs.breakers[j] = s.bs.breakers[j]) ∧
        t.bs.breakers[k] = { s.bs.breakers[k] with poles := t.bs.breakers[k].poles } ∧
        (∀ p : Fin 3, t.bs.breakers[k].poles[p] =
          if inSet sel p.val then f s.bs.breakers[k].poles[p] else s.bs.breakers[k].poles[p]) ∧
        ((∃ p : Fin 3, inSet sel p.val = true) →
          ∃ (p : Fin 3) (trip : Option Nat), inSet sel p.val = true ∧
            t.Notified s.notices.routes[5]
              (.breakerFault k p (if c = .failToClose k then .failToClose else .failToOpen) trip)))

/-- Every reference of R126 starts and stops measurements. RUN_START starts one at the start boundary. An accepted input edge,
an entry of a slot, an event of a breaker, and an input that a remote EVENT reports, each named by the start reference, count,
and at the occurrence start it: from the edge's t_first, the entry boundary, the event's instant, or the ET of the EVENT's
device time, the shorter way round by the model's deduction, log 38 (R124, R126, R127, R132; poles of one breaker that fall due
together publish one event each, in one row by the model's choice, log 26). The event that the stop reference names ends it:
TIME with the time between the two, EARLY, LATE or PASS by its band; VALUE with the value in force at the stop, LOW, HIGH or
PASS, or VOID where the history no longer holds it; NO_OPERATE, within its window, UNEXPECTED; each VOID where a relevant
impairment overlaps, or where a remote start or stop was not LOCKED (R124, R128, R130, R131, R132, R134). The window of a
NO_OPERATE measurement ends with the outcome PASS and no stop instant, or VOID where an impairment relevant to it overlaps the
window; the result is committed as an essential record and the measurement is DONE (R132, R134, R136). What makes a result VOID
is the overflow mark, then a poor remote start or stop, then the first interval in the list, the one opened first, that is
relevant and overlaps (R133, R134); the value in force is that of the newest pair of the history not after the instant, and else
0, or unknown where the history is truncated (R130). A stop that falls on a frame boundary, or after it, reads the value that
its entries and steps leave in force (R130): that until then it waits at MU, and later events behind it, an entry among them, is
the model's choice, log 72, and so is that the determination instant is the present one also for an event on a skipped count,
log 55. -/
def Obligations.WindowExpiryGivesTheResult : Prop :=
  (∀ (s : State) (d : MeasDef) (poor : Bool) (lo hi : Tick),
    (s.sq.overflow = true → s.decidingKind d poor lo hi = some .overflow) ∧
    (s.sq.overflow = false → poor = true → s.decidingKind d poor lo hi = some (.impairment .remoteTime)) ∧
    (s.sq.overflow = false → poor = false →
      (∀ (n : Nat) (i : Interval), s.sq.impairments[n]? = some i → d.VoidedBy i lo hi →
        (∀ j < n, ∀ x, s.sq.impairments[j]? = some x → ¬d.VoidedBy x lo hi) →
        s.decidingKind d poor lo hi = some (.impairment i.kind)) ∧
      ((∀ i ∈ s.sq.impairments, ¬d.VoidedBy i lo hi) → s.decidingKind d poor lo hi = none))) ∧
  (∀ (history : List (Tick × Int)) (truncated : Bool) (t : Tick),
    (∀ (n : Nat) (p : Tick × Int), history[n]? = some p → Tick.le p.1 t = true → (∀ j > n, ∀ x : Tick × Int, history[j]? = some x → Tick.le x.1 t = false) →
      valueAt history truncated t = some p.2) ∧
    ((∀ p ∈ history, Tick.le p.1 t = false) → valueAt history truncated t = if truncated then none else some 0)) ∧
  ∀ (s : State) (m : Fin 32) (d : MeasDef), s.pins.resetN = true → s.mu.meas[m].definition = some d →
    (∀ (i : Fin 16) (at' : Tick) (c : Candidate) (l : Level), s.now.sampled = some at' → s.biu.inputs[i].cand = some c →
      s.biu.inputs[i].cfg.tdb ≤ (at' - c.lastChange).toNat → l = s.biu.inputs[i].raw → l ≠ s.biu.inputs[i].stable →
      s.biu.inputs[i].cfg.limit = 0 → s.running = true →
      (∀ a, s.mu.meas[m].live = .timing → s.mu.meas[m].start = some a → d.stop = .inputLocal i l →
        s.EventWaits (.inputLocal i l) c.tFirst.et →
        ∃ t more, exec (.debounceAccept i) s = .next t ∧ t.mu.meas[m] = s.mu.meas[m] ∧
          t.mu.waiting = s.mu.waiting ++ more ++ [{ event := .inputLocal i l, ref := c.tFirst.et, poor := false }]) ∧
      (s.EventPasses (.inputLocal i l) c.tFirst.et →
        ∃ t, exec (.debounceAccept i) s = .next t ∧
          d.Counts (.inputLocal i l) c.tFirst.et false 1 s.mu.meas[m] t.mu.meas[m] ∧
          s.Stops d (.inputLocal i l) c.tFirst.et false s.mu.meas[m] t.mu.meas[m])) ∧
    (∀ (o : RunOptions) (b : Tick) (body : LiveBody) (c : Instr) (before : List RecordBody), s.sq.runState = .armed →
      s.sq.options = some o → s.AtBoundary b → s.StartDue b c before → s.CanEnter o.first body →
      s.mu.meas[m].live = .waitingStart → d.start = .runStart → d.stop ≠ .stateEntry o.first →
      ((∃ k e, d.stop = .breaker k e) → ∀ k : Fin 4, body.actions[k] = .nothing) →
      ∃ t, exec c s = .next t ∧ t.mu.meas[m] = { s.mu.meas[m] with
        live := .timing, start := some b, startPoor := false, expiry := d.expiryFrom b
        history := t.mu.meas[m].history, truncated := t.mu.meas[m].truncated }) ∧
    (∀ (b : Tick) (k : Fin 64) (body : LiveBody) (c : Instr) (cause : EntryCause) (before : List RecordBody),
      s.sq.runState = .running → s.AtBoundary b → s.EntryDue b c k cause before → s.CanEnter k body →
      ((∃ j e, d.stop = .breaker j e) → ∀ j : Fin 4, body.actions[j] = .nothing) →
      (s.mu.waiting = [] → (∀ (j : Fin 32) (x : MeasDef), s.mu.meas[j].Reads x → x.stop ≠ .stateEntry k) →
        ∃ (t : State) (x : Measurement), exec c s = .next t ∧
          x = { s.mu.meas[m] with history := t.mu.meas[m].history, truncated := t.mu.meas[m].truncated } ∧
          d.Counts (.stateEntry k) b false 1 x t.mu.meas[m] ∧ s.Stops d (.stateEntry k) b false x t.mu.meas[m]) ∧
      ((s.mu.waiting ≠ [] ∨ ∃ (j : Fin 32) (x : MeasDef), s.mu.meas[j].Reads x ∧ x.stop = .stateEntry k) →
        ∃ t more, exec c s = .next t ∧
          t.mu.waiting = s.mu.waiting ++ [{ event := .stateEntry k, ref := b, poor := false }] ++ more)) ∧
    (∀ (k : Fin 4) (at' : Tick) (sel : BitVec 3) (c : Instr) (e : BreakerEventKind), s.PolesDue k at' sel c e →
      s.BreakersPass → ((∃ j x, d.stop = .breaker j x) → ∀ j x n, d.start ≠ .onEvent (.breaker j x) n) →
      ∃ t, exec c s = .next t ∧
        d.Counts (.breaker k e) at' false ((List.finRange 3).filter (fun p => inSet sel p.val)).length s.mu.meas[m] t.mu.meas[m] ∧
        s.Stops d (.breaker k e) at' false s.mu.meas[m] t.mu.meas[m]) ∧
    (∀ (x : Message) (i : Fin 16) (l : Level) (dev : Nat) (q : TimeQuality), s.Arrives x → s.running = true →
      x.body = .event (.input i l) dev q → s.EventPasses (.inputRemote x.orig i l) (s.etOf dev) →
      ∃ t, exec (.eventReceived x.bytes) s = .next t ∧
        d.Counts (.inputRemote x.orig i l) (s.etOf dev) (q.disc != .locked) 1 s.mu.meas[m] t.mu.meas[m] ∧
        t.Stops d (.inputRemote x.orig i l) (s.etOf dev) (q.disc != .locked) s.mu.meas[m] t.mu.meas[m]) ∧
    (∀ (b a : Tick) (u : State) (w : WaitingEvent) (rest : List WaitingEvent), s.boundaryNow = some b →
      s.sq.runState = .running → s.mu.waiting = w :: rest → s.commitDue b = false → s.sq.heldDue = none →
      (exec .transition s = .next u ∧ u.limitDue b = none ∧ u.dwellDue b = none ∨
        exec .rampStep s = .next u ∧ s.sq.pendingTr = none ∧ s.limitDue b = none) →
      u.sq.runState = .running → u.mu.meas[m].definition = some d → u.mu.meas[m].live = .timing →
      u.mu.meas[m].start = some a → d.stop = w.event →
      ∃ t, exec (.frameBoundary s.pins.slhold) s = .next t ∧ u.ValueRead d a w.ref w.poor u.mu.meas[m] t.mu.meas[m]) ∧
    ∀ a x : Tick, s.windowDue m = some x → s.mu.meas[m].start = some a →
    ∃ (r : MeasResult) (t : State), exec (.windowExpiry m) s = .next t ∧
      r.outcome = (if (s.decidingKind d s.mu.meas[m].startPoor a x).isSome then .voided else .pass) ∧
      r.deciding = s.decidingKind d s.mu.meas[m].startPoor a x ∧
      r.run = s.sq.lastRun ∧ r.value = none ∧ r.stop = none ∧ r.start = some a ∧ r.determined = s.tb.et ∧ r.tq = ⟨s.tb.disc, s.tb.suspect⟩ ∧
      t.rs.records = s.rs.records ++ [{ seq := s.rs.nextSeq, run := s.runNumber, body := .measurementResult m d.kind r }] ∧
      t = { s with
        mu := { s.mu with meas := upd s.mu.meas m { s.mu.meas[m] with live := .done, result := some r, stop := none } }
        rs := t.rs, notices := t.notices }

/-! ### The run -/

/-- ARM is judged in the order of R53, its third check being passed just by fields in their ranges with an AT_TIME instant later
than device time + 1,000 µs, a PEER start with a joint id, and a mask of defined measurements. Taken, it creates the run: the
next number, the arming port as owner, its options, the list emptied, the reserve of 904 + 40 bytes a measurement set aside,
every pole at its initial position, every remote level unreported, and of every measurement the occurrence count, the instants,
the history and the result cleared, each enabled one being WAITING_START and the others INACTIVE (R53, R54, R104, R125, R149,
R174). -/
def Obligations.ArmCreatesTheRun : Prop :=
  ∀ (s : State) (p : Port) (tag : Byte) (a : ArmArgs), s.Takes p →
    (s.sq.runState = .inhibited → exec (.arm p tag a) s = .next (s.replied p tag .inhibited .empty)) ∧
    (s.sq.runState ≠ .inhibited → s.sq.runState ≠ .idle → exec (.arm p tag a) s = .next (s.replied p tag .state .empty)) ∧
    (s.sq.runState = .idle → s.checkArm a = none → exec (.arm p tag a) s = .next (s.replied p tag .badField .empty)) ∧
    (∀ o, s.checkArm a = some o ↔ a = o.asArgs ∧ s.AdmitsRun o) ∧
    (∀ o, s.sq.runState = .idle → s.checkArm a = some o →
      (o.requireLock = true ∧ s.tb.disc ≠ .locked → exec (.arm p tag a) s = .next (s.replied p tag .time .empty)) ∧
      ((o.requireLock = true → s.tb.disc = .locked) →
        (o.joint ≠ 0 ∧ s.pr.ring ≠ .up → exec (.arm p tag a) s = .next (s.replied p tag .ring .empty)) ∧
        ((o.joint ≠ 0 → s.pr.ring = .up) → ∀ need, need = 904 + 40 * ((List.range 32).filter (inSet a.mask)).length →
          (s.rs.available < need → exec (.arm p tag a) s = .next (s.replied p tag .noSpace .empty)) ∧
          (need ≤ s.rs.available →
            ∃ (t : State) (number : Nat) (standing : Option Bool), exec (.arm p tag a) s = .next t ∧
              number = (if 65535 ≤ s.sq.lastRun then 1 else s.sq.lastRun + 1) ∧
              s.Answered p tag .ok (.armed number standing) t ∧
              (∀ i l, o.start = .input i l → standing = some (decide (s.biu.inputs[i].published = l))) ∧
              o.mask = a.mask ∧ o.first.val = a.first ∧ o.joint = a.joint ∧ o.nominal = a.nominal ∧
              t.sq = { s.sq with
                runState := .armed, lastRun := number, owner := some p, options := some o, startPending := none, active := none
                count := 0, pendingTr := none, held := none, heldDue := none, impairments := [], overflow := false } ∧
              t.rs.reserve = need ∧ t.rs.runDropped = 0 ∧ t.rs.nextSeq = s.rs.nextSeq ∧ s.rs.Extends t.rs ∧
              (∀ (k : Fin 4) (q : Fin 3), t.bs.breakers[k].cfg = s.bs.breakers[k].cfg ∧ t.bs.breakers[k].trips = 0 ∧
                t.bs.breakers[k].closes = 0 ∧ (a.positions[k] = 0 ∨ a.positions[k] = 1) ∧
                t.bs.breakers[k].poles[q] =
                  { state := if a.positions[k] = 1 then .opened else .closed, pending := none, late := false, opTrip := none
                    remembered := none, failure := none }) ∧
              (∀ m : Fin 32, t.mu.meas[m] = { s.mu.meas[m] with
                live := if inSet a.mask m.val then .waitingStart else .inactive
                occ := 0, start := none, stop := none, expiry := none, history := [], truncated := false, startPoor := false
                result := none }) ∧ t.mu.waiting = [] ∧
              t.pr = { s.pr with levels := t.pr.levels } ∧ (∀ (n : Fin 4) (i : Fin 16), (t.pr.levels[n])[i] = none) ∧
              (∀ c : Fin 10, t.ws.channels[c] = { s.ws.channels[c] with forced := false }) ∧
              t.ws.nominalInc = increment a.nominal ∧
              t.tb = s.tb ∧ t.now = s.now ∧ t.biu = s.biu ∧ t.st = s.st ∧ t.pins = s.pins ∧ t.out = s.out ∧
              t.pending = s.pending))))

/-- DISARM ends an ARMED run of its owner unstarted; START makes the start of a COMMAND run pending at the next boundary, or in
a joint run proposes it; ADVANCE meets the active state's lowest ADVANCE trigger: met, held, proposed, or too late. In another
run state each is answered STATE, and then NOT_OWNER from the other port (this order of the two refusals, as for a RUNNING run's
DISARM from the other port, is the model's choice, log 11). DISARM and START are refused with STATE while the run has proposed a
START or is pledged to one, and, by the model's choice, for a slot proposal or pledge too (log 63); ADVANCE in a state without an
ADVANCE trigger (R52, R55, R56, R58, R63, R64, R166). That ADVANCE is too late while a released held trigger waits for its
boundary is the model's deduction, log 23, and that a boundary on the count that the microsecond skips is the next one its choice,
log 82. -/
def Obligations.DisarmStartAndAdvance : Prop :=
  ∀ (s : State) (p : Port) (tag : Byte), s.Takes p →
    (∀ c, (c = .disarm p tag ∨ c = .start p tag) →
      (s.sq.runState ≠ .armed → exec c s = .next (s.replied p tag .state .empty)) ∧
      (s.sq.runState = .armed → s.sq.owner ≠ some p → exec c s = .next (s.replied p tag .notOwner .empty)) ∧
      (s.sq.runState = .armed → s.sq.owner = some p → (s.pr.proposal.role = .proposer ∨ s.pr.proposal.role = .pledged) →
        exec c s = .next (s.replied p tag .state .empty))) ∧
    (s.sq.runState ≠ .running → exec (.advance p tag) s = .next (s.replied p tag .state .empty)) ∧
    (s.sq.runState = .running → s.sq.owner ≠ some p → exec (.advance p tag) s = .next (s.replied p tag .notOwner .empty)) ∧
    (s.sq.runState = .running → s.sq.owner = some p → (∀ tr ∈ s.triggers, tr.cond ≠ .advance) →
      exec (.advance p tag) s = .next (s.replied p tag .state .empty)) ∧
    (s.sq.runState = .armed → s.sq.owner = some p → s.pr.proposal.role ≠ .proposer → s.pr.proposal.role ≠ .pledged →
      (∃ t, exec (.disarm p tag) s = .next t ∧ s.Answered p tag .ok .empty t ∧
        t.sq = { s.sq with runState := .idle, owner := none, startPending := none } ∧ t.rs.reserve = 0 ∧
        t.rs.records = s.rs.records ∧
        (∀ m : Fin 32, t.mu.meas[m] = { s.mu.meas[m] with
          live := if s.mu.meas[m].live = .waitingStart then .inactive else s.mu.meas[m].live }) ∧
        t.tb = s.tb ∧ t.biu = s.biu ∧ t.st = s.st ∧ t.ws = s.ws ∧ t.bs = s.bs ∧ t.pins = s.pins ∧ t.out = s.out ∧
        t.pending = s.pending) ∧
      ∀ o, s.sq.options = some o →
        ((o.start ≠ .command ∨ s.sq.startPending.isSome = true) →
          exec (.start p tag) s = .next (s.replied p tag .state .empty)) ∧
        (o.start = .command → s.sq.startPending = none → o.joint = 0 →
          exec (.start p tag) s = .next
            (State.replied { s with sq := { s.sq with startPending := some s.nextBoundary } } p tag .ok .empty)) ∧
        (o.start = .command → s.sq.startPending = none → o.joint ≠ 0 → s.pr.proposal.role = .idle →
          ∃ t, exec (.start p tag) s = .next t ∧ s.Answered p tag .ok .empty t ∧ t.sq = s.sq ∧
            s.Proposes none .preempt t)) ∧
    (∀ tr i, s.sq.runState = .running → s.sq.owner = some p → s.Lowest .advance i tr →
      ((s.sq.pendingTr.isSome = true ∨ s.sq.heldDue.isSome = true ∨ s.pr.holds = true ∧ s.sq.held.isSome = true) →
        exec (.advance p tag) s = .next (s.replied p tag .ok (.advance .late))) ∧
      (s.sq.pendingTr = none → s.sq.heldDue = none → s.pr.holds = true → s.sq.held = none →
        exec (.advance p tag) s = .next (State.replied
          { s with sq := { s.sq with held := some { cause := .trigger i, at' := s.tb.et } } } p tag .ok (.advance .held))) ∧
      (s.MayExit → tr.mode = .alone →
        exec (.advance p tag) s = .next (State.replied
          { s with sq := { s.sq with
            pendingTr := some { target := tr.target, cause := .trigger i, boundary := s.exitBoundary } } }
          p tag .ok (.advance .met))) ∧
      (s.MayExit → tr.mode ≠ .alone →
        ∃ t, exec (.advance p tag) s = .next t ∧ s.Answered p tag .ok (.advance .proposed) t ∧
          t.sq = { s.sq with held := some { cause := .trigger i, at' := s.tb.et } } ∧
          s.Proposes (some tr.target) tr.mode t))

/-- R68: ABORT from either port, whatever the owner, closes a RUNNING run with reason ABORTED and ends an ARMED one unstarted, and
is answered OK; in IDLE and INHIBITED it is refused with STATE. The stream enable is as it was, and the part is left IDLE. -/
def Obligations.AbortEndsTheRun : Prop :=
  ∀ (s : State) (p : Port) (tag : Byte), s.Takes p →
    ((s.sq.runState = .idle ∨ s.sq.runState = .inhibited) →
      exec (.abort p tag) s = .next (s.replied p tag .state .empty)) ∧
    (s.sq.runState = .running →
      exec (.abort p tag) s = .next ((s.closeRun .aborted s.tb.et).replied p tag .ok .empty) ∧
      (s.closeRun .aborted s.tb.et).ClosedWith .aborted ∧
      (s.closeRun .aborted s.tb.et).sq.streamEnable = s.sq.streamEnable) ∧
    (s.sq.runState = .armed →
      ∃ t, exec (.abort p tag) s = .next t ∧ s.Answered p tag .ok .empty t ∧
        t.sq = { s.sq with runState := .idle, owner := none, startPending := none } ∧ t.rs.reserve = 0 ∧
        t.tb = s.tb ∧ t.biu = s.biu ∧ t.st = s.st ∧ t.ws = s.ws ∧ t.bs = s.bs ∧ t.pins = s.pins ∧ t.pending = s.pending)

/-- The close of a RUNNING run at an instant (R67): RUN_CLOSE, with the reason, the active slot and the entry count, is the last
record and takes the next number, and for an emergency stop it keeps the pole states and the output levels of the instant; it
carries the count of each outcome over the enabled measurements, and the verdict: FAIL with any failing outcome, else PASS with
all PASS, else INCONCLUSIVE (R138). Each defined measurement that was WAITING_START becomes NOT_RUN, one that was TIMING
NOT_OPERATED, or NOT_RUN if it is NO_OPERATE (R135); poles keep their states with nothing pending; every interval is closed; the
outputs stand at their levels outside a run. A stop that waits at MU for its boundary came first and determines a VALUE
measurement by its own rule (R135; log 72; its determination instant, on a skipped count, log 55). Stated on a close by ABORT,
by EMERGENCY STOP and by the fall of ESTOP_N; what a COMPLETED close makes of a NO_OPERATE measurement stands with the END
record in `EntriesTrapsAndEnds`. -/
def Obligations.AClosedRunLeavesItsReport : Prop :=
  ∀ (s : State) (c : Instr) (reason : CloseReason), s.pins.resetN = true → s.sq.runState = .running →
    ((∃ p tag, (s.port p).queue.length < 4 ∧
        (c = .abort p tag ∧ reason = .aborted ∨ c = .emergencyStop p tag ∧ reason = .estop)) ∨
      c = .estopNFall ∧ reason = .estop) →
    ∃ (t : State) (r : Record) (d : RunCloseData), exec c s = .next t ∧
      t.sq.lastClose = some reason ∧ t.sq.runState = (if reason = .estop then .inhibited else .idle) ∧
      t.rs.records.getLast? = some r ∧ r.run = s.sq.lastRun ∧ r.body = .runClose d ∧ r.seq + 1 = t.rs.nextSeq ∧
      d.reason = reason ∧ d.at' = s.stamp ∧ d.active = s.sq.active ∧ d.count = s.sq.count ∧ d.overflow = s.sq.overflow ∧
      d.snapshot = (if reason = .estop then
        some (s.bs.breakers.map (fun b => b.poles.map Pole.state), s.biu.driven) else none) ∧
      (∀ k : Fin 4, d.trips[k] = s.bs.breakers[k].trips ∧ d.closes[k] = s.bs.breakers[k].closes) ∧
      (∀ (m : Fin 32) (x : MeasDef), s.mu.meas[m].definition = some x →
        (s.mu.meas[m].live = .waitingStart ∨ s.mu.meas[m].live = .timing) → s.mu.waiting = [] →
        ∃ y, t.mu.meas[m].live = .done ∧ t.mu.meas[m].result = some y ∧ y.run = s.sq.lastRun ∧ y.value = none ∧
          y.stop = none ∧
          y.outcome = match s.mu.meas[m].live, x.kind with
            | .waitingStart, _ => .notRun
            | _, .noOperate _ => .notRun
            | _, _ => .notOperated) ∧
      (∀ (m : Fin 32) (x : MeasDef) (a : Tick) (w : WaitingEvent) (rest : List WaitingEvent),
        s.mu.meas[m].definition = some x → s.mu.meas[m].live = .timing → s.mu.meas[m].start = some a →
        s.mu.waiting = w :: rest → x.stop = w.event → s.ValueRead x a w.ref w.poor s.mu.meas[m] t.mu.meas[m]) ∧
      (∀ m : Fin 32, (s.mu.meas[m].definition = none ∨ s.mu.meas[m].live = .inactive ∨ s.mu.meas[m].live = .done) →
        t.mu.meas[m] = s.mu.meas[m]) ∧
      (∀ l : List MeasOutcome, l = (List.finRange 32).filterMap (fun m =>
          if s.enabled m then t.mu.meas[m].result.map MeasResult.outcome else none) →
        (∀ o : MeasOutcome, d.outcomes[o.index] = (l.filter (fun x => x = o)).length) ∧
        d.verdict = if ∃ o ∈ l, o ∈ [.early, .late, .low, .high, .unexpected, .notOperated] then .fail
          else if ∀ o ∈ l, o = .pass then .pass else .inconclusive) ∧
      (∀ (k : Fin 4) (q : Fin 3), t.bs.breakers[k].poles[q] =
        { s.bs.breakers[k].poles[q] with pending := none, remembered := none, failure := none }) ∧
      (∀ i ∈ t.sq.impairments, i.stop.isSome = true) ∧
      (∀ n : Fin 8, inSet t.biu.driven n.val = match s.biu.funcs[n] with
        | .sequence => inSet s.biu.rest n.val
        | .aux _ _ => false)

/-- EMERGENCY STOP is answered OK in every run state; it and the fall of ESTOP_N clear the stream enable, end any run, leave the
part INHIBITED and raise ESTOP with their source on the ports its route names. CLEAR INHIBIT lifts it while ESTOP_N is high alone
(R69, R70). That ESTOP names the run number 0 where it ended an ARMED run, or none, is the model's deduction, log 13; that a CLEAR
INHIBIT which finds ESTOP_N low only lowers the pin, without an emergency stop, its choice, log 80. -/
def Obligations.EmergencyStopInhibits : Prop :=
  ∀ s : State, s.pins.resetN = true →
    (∀ (c : Instr) (src : EstopSource) (u : State),
      (c = .estopNFall ∧ src = .pin ∧ u = { s with pins := { s.pins with estopN := false } } ∨
        ∃ p tag, c = .emergencyStop p tag ∧ src = .port p ∧ u = s ∧ (s.port p).queue.length < 4) →
      ∃ t, exec c s = .next t ∧ t.sq.runState = .inhibited ∧ t.sq.streamEnable = false ∧
        t.tb = s.tb ∧ t.st = s.st ∧ t.pins = u.pins ∧ t.pending = s.pending ∧
        (s.running = true → t.sq.lastClose = some .estop ∧ t.sq.active = none ∧ t.sq.owner = none) ∧
        (∀ q : Port, (s.notices.routes[0] = .both ∨ s.notices.routes[0] = .cp ∧ q = .cp ∨ s.notices.routes[0] = .ap ∧ q = .ap) →
          ∃ e, (t.notices.get q).entries[0] = some e ∧ e.detail = .estop src (if s.running then s.sq.lastRun else 0)) ∧
        (c = .estopNFall → t.ports = s.ports) ∧
        (∀ p tag, c = .emergencyStop p tag → s.Answered p tag .ok .empty t)) ∧
    (∀ (p : Port) (tag : Byte), (s.port p).queue.length < 4 →
      (∀ e, s.sq.runState ≠ .inhibited →
        exec (.clearInhibit p tag e) s =
          .next (State.replied { s with pins := { s.pins with estopN := e } } p tag .state .empty)) ∧
      (s.sq.runState = .inhibited →
        exec (.clearInhibit p tag false) s =
          .next (State.replied { s with pins := { s.pins with estopN := false } } p tag .inhibited .empty) ∧
        exec (.clearInhibit p tag true) s = .next (State.replied (State.raise
          { s with pins := { s.pins with estopN := true }, sq := { s.sq with runState := .idle, streamEnable := true } }
          (.runState .idle 0 s.sq.lastClose)) p tag .ok .empty)))

/-- Device time at or past the instant of an AT_TIME run, and an input edge published at the level that an INPUT run names, meet
its start: alone it is pending at the next boundary, in a joint run with no role a START is proposed (R57, R58, R166). At its
boundary a pending start, and in a joint run the START that was committed, make the run RUNNING and enter the first slot, R
anchored to the boundary and every channel's accumulator to R; each channel takes its setpoint, its DC term from a sample of 0
and 0 in a channel that an OPEN pole interrupts, and a RAMP its first dwell instant, one dwell on (R59, R65, R72, R80 to R84,
R90, R169). The records of the start are, after COMMITTED where a START was committed, RUN_OPEN, an IMPAIRMENT for each interval
that it opens, and then STATE_ENTRY with cause START and count (R59, R65, R72). That RUN_OPEN stands before the impairments is
the model's deduction, log 41, and that STATE_ENTRY stands before what MU, the entry actions and the triggers bring, its choice,
logs 14 and 64. That an AT_TIME_MET before its instant, or with a role already taken, leaves the state as it was is its choice
too, log 4; so are that a boundary on the count that the microsecond skips is the next one, log 82, and that every interval
carries the start boundary, log 81. -/
def Obligations.StartsAreMetAndMade : Prop :=
  ∀ (s : State) (o : RunOptions), s.sq.runState = .armed → s.sq.options = some o →
    (∀ u, s.pins.resetN = true → o.start = .atTime u → s.sq.startPending = none → o.joint = 0 →
      (s.dev < u → exec .atTimeMet s = .next s) ∧
      (u ≤ s.dev →
        exec .atTimeMet s = .next { s with sq := { s.sq with startPending := some s.nextBoundary } })) ∧
    (∀ u, s.pins.resetN = true → o.start = .atTime u → s.sq.startPending = none → o.joint ≠ 0 →
      ((s.dev < u ∨ s.pr.proposal.role ≠ .idle) → exec .atTimeMet s = .next s) ∧
      (u ≤ s.dev → s.pr.proposal.role = .idle →
        ∃ t, exec .atTimeMet s = .next t ∧ t.sq = s.sq ∧ s.SameBase t ∧ s.Proposes none .preempt t)) ∧
    (∀ (i : Fin 16) (at' : Tick) (c : Candidate) (l : Level), s.pins.resetN = true → s.now.sampled = some at' →
      s.biu.inputs[i].cand = some c → s.biu.inputs[i].cfg.tdb ≤ (at' - c.lastChange).toNat → l = s.biu.inputs[i].raw →
      l ≠ s.biu.inputs[i].stable → s.biu.inputs[i].cfg.limit = 0 → o.start = .input i l → s.sq.startPending = none →
      ∃ t, exec (.debounceAccept i) s = .next t ∧ s.SameBase t ∧
        (o.joint = 0 → t.sq = { s.sq with startPending := some s.nextBoundary }) ∧
        (o.joint ≠ 0 → s.pr.proposal.role = .idle → t.sq = s.sq ∧ s.Proposes none .preempt t)) ∧
    (∀ b body c before, s.AtBoundary b → s.CanEnter o.first body → s.StartDue b c before →
      ∃ (t : State) (channels : Vector Channel 10) (owner : Port) (opened : List RecordBody), exec c s = .next t ∧
        (∀ p, s.sq.owner = some p → owner = p) ∧ (∀ x ∈ opened, ∃ kind subject, x = .impairment kind subject ⟨b, devOf s.tb.offset b⟩) ∧
        s.Entered o.first body .start true b channels
          (before ++ [.runOpen owner o ⟨b, devOf s.tb.offset b⟩ ⟨s.tb.disc, s.tb.suspect⟩] ++ opened) t ∧
        s.SameBase t ∧
        t.sq.startInstant = some { et := b, dev := devOf s.tb.offset b } ∧ t.sq.startPending = none ∧
        t.sq.owner = s.sq.owner ∧ t.sq.options = s.sq.options ∧ t.sq.lastRun = s.sq.lastRun ∧
        t.ws.ref = anchorPhase o.nominal (devMicros (devOf s.tb.offset b)) ∧
        ∀ c : Fin 10, channels[c] = { s.ws.channels[c] with
          acc := t.ws.ref, sLast := 0
          intr := if ∃ (k : Fin 4) (p : Fin 3), c ∈ s.bs.breakers[k].cfg.assoc[p] ∧ s.bs.breakers[k].poles[p].state = .opened
            then .interrupted else .conducting })

/-- The entry checks of a slot: EMPTY_SLOT; CHANNEL_UNAVAILABLE or RANGE of the first channel that fails; NO_RING of the first
trigger that needs a ring the run has not (R48). At the boundary of a pending transition, of the time limit, of a ring commit,
or of a held trigger or time limit released by a WITHDRAW, the run enters the slot if it passes them: each channel takes its
setpoint, its accumulator anchored to R where the record says so, and its DC term, which carries the last sample on or is 0
(INTERRUPTED or forced too); a RAMP has its first dwell instant (R65, R82 to R84, R90). A failed check closes the run with TRAP,
raises its notice and enters nothing; an END record, counted as an entry, closes it COMPLETED; and the 65,535th entry is made
and closes it LIMIT (R49, R61, R62, R65 to R67, R168, R169). The records are WITHDRAWN or COMMITTED where the row brings it, the
results of what waited at MU (log 72), and then STATE_ENTRY, of an END record too, or TRAP, consecutive with the records of its
close (R65, R66, R145). That STATE_ENTRY stands before what MU, the entry actions and the triggers bring is the model's choice,
logs 14 and 64. At COMPLETED a NO_OPERATE measurement that is TIMING is PASS with no stop instant, judged from its start to the
entry boundary by the intervals as closed (R134, R135). An answer waiting is given at the entry, a deferred proposal accepted
where the state entered has a PEER trigger (R167). A proposer's time limit withdraws its PEER_WAIT proposal first (R170). A
released peer trigger proposes anew (R168). The model's deductions are that the 65,535th entry is made in full, log 44, and that
an answer given at an entry does not look at the ring, which a joint run leaves UP, log 39. Its choices are that the answer is
given before the level triggers are evaluated, so that one with a peer mode leaves it as it is, log 24, and that the
determination instant at a COMPLETED close is the present ET, also at a boundary on a skipped count, log 55. -/
def Obligations.EntriesTrapsAndEnds : Prop :=
  (∀ (s : State) (k : Fin 64),
    (s.st.slots[k] = none → s.entryCheck k = some (.emptySlot, none)) ∧
    (s.st.slots[k] = some .endState → s.entryCheck k = none) ∧
    ∀ (body : LiveBody) (ramp : Option RampSpec),
      (s.st.slots[k] = some (.steady body) ∧ ramp = none ∨ ∃ r, s.st.slots[k] = some (.ramp body r) ∧ ramp = some r) →
      (∀ c cause, s.FailsChannel body ramp c cause → (∀ c' < c, ∀ x, ¬s.FailsChannel body ramp c' x) →
        s.entryCheck k = some (cause, some c.val)) ∧
      ((∀ c x, ¬s.FailsChannel body ramp c x) →
        (∀ i tr, s.joint = 0 → body.triggers[i]? = some tr → tr.NeedsRing →
          (∀ j < i, ∀ x, body.triggers[j]? = some x → ¬x.NeedsRing) → s.entryCheck k = some (.noRing, some i)) ∧
        ((s.joint ≠ 0 ∨ ∀ tr ∈ body.triggers, ¬tr.NeedsRing) → s.entryCheck k = none))) ∧
  (∀ (s : State) (b : Tick) (h : HeldTrigger) (i : Nat) (tr : Trigger), s.AtBoundary b → s.sq.runState = .running →
    (∃ x, s.sq.heldDue = some x ∧ Tick.le x b = true) → s.sq.held = some h → h.cause = .trigger i →
    s.triggers[i]? = some tr → tr.mode ≠ .alone →
    ∃ t, exec .heldTriggerTaken s = .next t ∧ s.SameBase t ∧ t.sq = { s.sq with heldDue := none } ∧
      s.Proposes (some tr.target) tr.mode t) ∧
  ∀ (s : State) (b : Tick) (k : Fin 64) (c : Instr) (cause : EntryCause) (before : List RecordBody), s.AtBoundary b →
    s.sq.runState = .running → s.EntryDue b c k cause before →
    (∀ body, s.CanEnter k body →
      ∃ t, exec c s = .next t ∧ s.Entered k body cause false b s.ws.channels before t ∧
        t.ws.ref = (if s.now.opened then s.ws.ref else s.ws.ref + s.ws.nominalInc) ∧ s.SameBase t ∧
        t.sq.owner = s.sq.owner ∧ t.sq.options = s.sq.options ∧ t.sq.lastRun = s.sq.lastRun) ∧
    (∀ body, s.CanEnter k body → s.joint ≠ 0 →
      (∀ x, s.pr.waiting = some x → x.target.isSome = true → (x.mode ≠ .wait ∨ ∃ tr ∈ body.triggers, tr.cond = .peer) →
        ∃ t, exec c s = .next t ∧ t.pr.waiting = none ∧ t.pr.proposal.role = .pledged ∧ t.pr.proposal.prop = some x) ∧
      (∀ x, s.pr.waiting = none → s.pr.proposal.role = .deferred → s.pr.proposal.prop = some x → c ≠ .commitEntry →
        (∀ j : Fin 4, body.actions[j] = .nothing) → (∃ tr ∈ body.triggers, tr.cond = .peer) →
        ∃ t, exec c s = .next t ∧ t.pr.proposal.role = .pledged ∧ t.pr.proposal.prop = some x)) ∧
    (∀ body x, s.CanEnter k body → c = .timeLimit → s.WaitsToAccept x → s.pr.ring = .up →
      ∃ t rest, exec c s = .next t ∧
        t.out.ring = s.out.ring ++ { orig := s.pr.node, hop := 1, body := .withdraw s.joint x.number } :: rest ∧
        (s.pr.waiting = none → body.triggers = [] → t.pr.proposal = ProposalState.idle ∧ t.sq.held = none)) ∧
    (∀ body, (s.st.slots[k]).bind StateRecord.live = some body → s.entryCheck k = none → s.sq.count + 1 = 65535 →
      ∃ (t : State) (settled after : List RecordBody), exec c s = .next t ∧ t.ClosedWith .limit ∧ s.SameBase t ∧
        t.sq.count = 65535 ∧ t.ws.channels.map Channel.mag = body.setpoints.map Setpoint.mag ∧
        (∀ x ∈ settled, ∃ m kind r, x = .measurementResult m kind r) ∧
        s.RecordedAll (before ++ settled ++ [.stateEntry k cause 65535 b] ++ after) t) ∧
    (∀ trap detail, s.entryCheck k = some (trap, detail) →
      ∃ t, exec c s = .next t ∧ t.ClosedWith .trap ∧ s.SameBase t ∧ t.sq.count = s.sq.count ∧
        t.Notified s.notices.routes[1] (.trap k trap) ∧
        t.ws.channels.map Channel.mag = s.ws.channels.map Channel.mag ∧
        ∃ (settled results : List RecordBody) (data : RunCloseData),
          (∀ x ∈ settled, ∃ m kind r, x = .measurementResult m kind r) ∧
          (∀ x ∈ results, ∃ m kind r, x = .measurementResult m kind r ∧ (r.outcome = .notRun ∨ r.outcome = .notOperated)) ∧
          s.RecordedAll (before ++ settled ++ [.trap k trap detail b] ++ results ++
            (if s.joint = 0 ∨ s.pr.ring = .down then [] else [.peerEvent (.abort s.joint s.pr.node (some .trap))]) ++
            [.runClose data]) t ∧ data.reason = .trap) ∧
    (s.st.slots[k] = some .endState →
      ∃ (t : State) (settled after : List RecordBody), exec c s = .next t ∧ t.ClosedWith .completed ∧ s.SameBase t ∧
        t.sq.count = s.sq.count + 1 ∧ t.ws.channels.map Channel.mag = s.ws.channels.map Channel.mag ∧
        (∀ x ∈ settled, ∃ m kind r, x = .measurementResult m kind r) ∧
        s.RecordedAll (before ++ settled ++ [.stateEntry k cause (s.sq.count + 1) b] ++ after) t ∧
        ∀ (m : Fin 32) (d : MeasDef) (w : Nat) (a : Tick) (u : State) (deciding : Option Deciding),
          s.mu.meas[m].definition = some d → d.kind = .noOperate w → s.mu.meas[m].live = .timing →
          s.mu.meas[m].start = some a → d.stop ≠ .stateEntry k → (∀ x ∈ s.mu.waiting, x.event ≠ d.stop) →
          u = { s with sq := { s.sq with impairments := s.sq.impairments.map (fun i =>
            if i.stop = none then { i with stop := some b } else i) } } →
          deciding = u.decidingKind d s.mu.meas[m].startPoor a b →
          t.mu.meas[m] = { s.mu.meas[m] with
            live := .done, stop := none
            result := some { run := s.runNumber, outcome := if deciding.isSome then .voided else .pass, value := none, band := w
                             start := some a, stop := none, determined := s.tb.et, tq := ⟨s.tb.disc, s.tb.suspect⟩
                             deciding := deciding } })

/-! ### The report store -/

/-- The reader of the issuing port alone moves. SUBSCRIBE brings a cursor on a discarded number to the oldest record, with the
count skipped; UNSUBSCRIBE leaves the cursor and withdraws REPORT_READY; REWIND goes to the oldest record and SEEK to a number
held, or to the next one; another number is refused. No record is changed (R146, R153, R154). REPORT_READY is raised for a
subscribed reader that a REWIND, SEEK or SUBSCRIBE leaves short of the newest record, and withdrawn by a SEEK past it (R151).
The low-space state follows the available space, and SPACE_LOW with cause FALL is raised where that falls below 4,096 and not
again before it has risen (R150). -/
def Obligations.ReadersMove : Prop :=
  ∀ (s : State) (p : Port) (tag : Byte) (rd : Reader), s.Takes p → s.rs.reader p = rd →
    (rd.subscribed = true → exec (.subscribe p tag) s = .next (s.replied p tag .ok (.cursorGap none rd.cursor))) ∧
    (rd.subscribed = false → exec (.unsubscribe p tag) s = .next (s.replied p tag .ok (.cursor rd.cursor))) ∧
    (∀ q, s.rs.records.length < (q - s.rs.oldest).toNat →
      exec (.seek p tag q) s = .next (s.replied p tag .badField .empty)) ∧
    (∀ (c : Instr) (new : Reader) (body : ReplyBody),
      (c = .subscribe p tag ∧ rd.subscribed = false ∧ new.subscribed = true ∧
          ((rd.cursor - s.rs.oldest).toNat ≤ s.rs.records.length ∧ new.cursor = rd.cursor ∧
              body = .cursorGap none rd.cursor ∨
            s.rs.records.length < (rd.cursor - s.rs.oldest).toNat ∧ new.cursor = s.rs.oldest ∧
              body = .cursorGap (some (s.rs.oldest - rd.cursor).toNat) s.rs.oldest) ∨
        c = .unsubscribe p tag ∧ rd.subscribed = true ∧ new = { rd with subscribed := false } ∧ body = .cursor rd.cursor ∨
        c = .rewind p tag ∧ new = { rd with cursor := s.rs.oldest } ∧
          body = .position s.rs.oldest (s.rs.records.head?.map Record.seq) (s.rs.records.getLast?.map Record.seq) ∨
        ∃ q, c = .seek p tag q ∧ (q - s.rs.oldest).toNat ≤ s.rs.records.length ∧ new = { rd with cursor := q } ∧
          body = .position q (s.rs.records.head?.map Record.seq) (s.rs.records.getLast?.map Record.seq)) →
      ∃ t, exec c s = .next t ∧ t.rs = { s.rs.setReader p new with low := t.rs.low } ∧
        t = { s with rs := t.rs, notices := t.notices, ports := t.ports } ∧ s.Answered p tag .ok body t ∧ s.SpaceTold t ∧
        (∀ (q : Port) (k : Fin 11), k ≠ 8 → (k = 9 → q ≠ p) → (t.notices.get q).entries[k] = (s.notices.get q).entries[k]) ∧
        (c = .unsubscribe p tag → (t.notices.get p).entries[9] = none) ∧
        (new.subscribed = true → new.cursor ≠ s.rs.nextSeq → ∀ n, s.rs.records.getLast?.map Record.seq = some n →
          s.notices.Raises p (.reportReady n) t.notices) ∧
        (new.subscribed = true → new.cursor = s.rs.nextSeq → (t.notices.get p).entries[9] =
          if c = .seek p tag new.cursor then none else (s.notices.get p).entries[9]) ∧
        (new.subscribed = false → c ≠ .unsubscribe p tag → (t.notices.get p).entries[9] = (s.notices.get p).entries[9]))

/-- READ RECORDS returns whole records from the cursor, or from the oldest where the cursor's number is gone, as many in order as
the size holds, and moves the cursor past them; a size above 200 is refused. ERASE STORE, in IDLE alone, empties the store and
brings both cursors to the next number, which stays (R152, R155). REPORT_READY is withdrawn where they leave no record beyond the
cursor (R151). The low-space state follows the available space, so that a later fall below 4,096 raises SPACE_LOW again; the other
notices and the dropped counts stay (R150). -/
def Obligations.ReadRecordsAndEraseStore : Prop :=
  ∀ (s : State) (p : Port) (tag : Byte), s.Takes p →
    (∀ size, 200 < size → exec (.readRecords p tag size) s = .next (s.replied p tag .badField .empty)) ∧
    (∀ size c, size ≤ 200 →
      ((s.rs.reader p).cursor - s.rs.oldest).toNat ≤ s.rs.records.length ∧ c = (s.rs.reader p).cursor ∨
        s.rs.records.length < ((s.rs.reader p).cursor - s.rs.oldest).toNat ∧ c = s.rs.oldest →
      ∃ (t : State) (r : RecordsReply), exec (.readRecords p tag size) s = .next t ∧ s.Answered p tag .ok (.records r) t ∧
        r.records = (s.rs.records.drop (c - s.rs.oldest).toNat).take r.records.length ∧
        totalLength r.records ≤ size ∧
        (∀ x, (s.rs.records.drop (c - s.rs.oldest).toNat)[r.records.length]? = some x →
          size < totalLength r.records + x.length ∧ r.misfit = some x.length) ∧
        ((s.rs.records.drop (c - s.rs.oldest).toNat).length = r.records.length → r.misfit = none) ∧
        r.gap = (if c = (s.rs.reader p).cursor then none else some (c - (s.rs.reader p).cursor).toNat) ∧
        r.cursor = c + BitVec.ofNat 32 r.records.length ∧ r.subscribed = (s.rs.reader p).subscribed ∧
        r.oldest = s.rs.records.head?.map Record.seq ∧ r.newest = s.rs.records.getLast?.map Record.seq ∧
        r.available = t.rs.available ∧ r.reserve = s.rs.reserve ∧ r.runDropped = s.rs.runDropped ∧
        r.totalDropped = s.rs.totalDropped ∧
        t.rs = { s.rs.setReader p { s.rs.reader p with cursor := r.cursor } with low := t.rs.low } ∧
        t = { s with rs := t.rs, notices := t.notices, ports := t.ports } ∧ s.SpaceTold t ∧
        (∀ (q : Port) (k : Fin 11), k ≠ 8 → (k = 9 → q ≠ p) → (t.notices.get q).entries[k] = (s.notices.get q).entries[k]) ∧
        (t.notices.get p).entries[9] =
          if r.cursor = s.rs.nextSeq ∧ r.subscribed = true then none else (s.notices.get p).entries[9]) ∧
    (s.sq.runState ≠ .idle → exec (.eraseStore p tag) s = .next (s.replied p tag .state .empty)) ∧
    (s.sq.runState = .idle →
      ∃ t, exec (.eraseStore p tag) s = .next t ∧ s.Answered p tag .ok .empty t ∧
        t.rs = { s.rs with
          records := [], cpReader := { s.rs.cpReader with cursor := s.rs.nextSeq }
          apReader := { s.rs.apReader with cursor := s.rs.nextSeq }, low := t.rs.low } ∧
        t.notices.cp.entries[9] = none ∧ t.notices.ap.entries[9] = none ∧ s.SpaceTold t ∧
        (∀ (q : Port) (k : Fin 11), k ≠ 8 → k ≠ 9 → (t.notices.get q).entries[k] = (s.notices.get q).entries[k]) ∧
        t = { s with rs := t.rs, notices := t.notices, ports := t.ports })

/-! ### The ring -/

/-- CONFIGURE RING in IDLE sets node and enable, clearing the live state when it enables; light brings an enabled ring to
FORMING and its loss every ring to DOWN, which closes a joint run RING_LOST; a member not heard of for 3 rounds leaves the set,
which takes an UP ring to FORMING (R158, R161, R162, R164). How the rounds are counted, a member last seen in round r leaving
when round r + 4 begins, is the model's deduction, log 17; that a MEMBER_TIMEOUT before then does nothing is the model's choice,
log 4, and that outside IDLE the command is answered STATE whatever its fields hold, one out of range too, is another, log 11. -/
def Obligations.TheRingIsConfiguredAndKept : Prop :=
  ∀ s : State, s.pins.resetN = true →
    (∀ (p : Port) (tag : Byte), (s.port p).queue.length < 4 →
      (∀ n e, s.sq.runState ≠ .idle → exec (.configureRing p tag n e) s = .next (s.replied p tag .state .empty)) ∧
      (s.sq.runState = .idle →
        (∀ n e, (4 ≤ n ∨ 2 ≤ e) → exec (.configureRing p tag n e) s = .next (s.replied p tag .badField .empty)) ∧
        ∀ (n : Fin 4) (e : Bool),
          ∃ t, exec (.configureRing p tag n.val e.toNat) s = .next t ∧ s.Answered p tag .ok .empty t ∧
            t.pr.node = n ∧ t.pr.enable = e ∧ t.pr.ring = (if e && s.pins.light then .forming else .down) ∧
            (e = true → (∀ m : Fin 4, t.pr.members[m] = none ∧ ∀ i : Fin 16, (t.pr.levels[m])[i] = none) ∧
              t.pr.history = { returns := 0, losses := 0, last := none } ∧ t.pr.proposal.prop = none ∧
              t.pr.waiting = none ∧ t.pr.poor = 0) ∧
            t.sq.runState = .idle ∧ t.tb = s.tb ∧ t.biu = s.biu ∧ t.st = s.st ∧ t.ws = s.ws ∧ t.bs = s.bs ∧ t.mu = s.mu ∧
            t.pins = s.pins ∧ t.out = s.out ∧ t.pending = s.pending)) ∧
    ((s.pr.enable = true ∧ s.pr.ring = .down) →
      ∃ t, exec .lightGained s = .next t ∧ t.pr.ring = .forming ∧ t.pr.history = { returns := 0, losses := 0, last := none } ∧
        t.pins = { s.pins with light := true } ∧ t.tb = s.tb ∧ t.st = s.st ∧ t.ports = s.ports ∧ t.pending = s.pending) ∧
    ((s.pr.enable = false ∨ s.pr.ring ≠ .down) →
      exec .lightGained s = .next { s with pins := { s.pins with light := true } }) ∧
    (∃ t, exec .lightLost s = .next t ∧ t.pr.ring = .down ∧ t.pins = { s.pins with light := false } ∧ t.tb = s.tb ∧
      t.st = s.st ∧ t.ports = s.ports ∧ t.pending = s.pending ∧
      (s.pr.ring = .up → t.pr.timeSource = none ∧ (s.running = true → s.joint ≠ 0 → t.ClosedWith .ringLost))) ∧
    (∀ n : Fin 4,
      (∀ m, s.pr.members[n] = some m → s.rounds < m.seen + 4 → exec (.memberTimeout n) s = .next s) ∧
      (∀ m, s.pr.members[n] = some m → m.seen + 4 ≤ s.rounds →
        ∃ t, exec (.memberTimeout n) s = .next t ∧ t.pr.members = upd s.pr.members n none ∧
          t.pr.ring = (if s.pr.ring = .up then .forming else s.pr.ring) ∧ t.tb = s.tb ∧ t.st = s.st ∧ t.ports = s.ports ∧
          t.pins = s.pins ∧ t.pending = s.pending))

/-- A BEACON goes out at a device-time millisecond with the part's time quality, source, device time, run state and joint id, and
the fate of the one before is counted: three returns in a row bring a FORMING ring UP, two losses an UP one to FORMING (R160,
R161). With no beacon sent before, there is no fate to count. -/
def Obligations.BeaconsAreSentAndCounted : Prop :=
  ∀ (s : State) (b : Tick) (h : BeaconHistory), s.pins.resetN = true → s.beaconDue = some b → s.pr.history = h →
    devOf s.tb.offset b % 1000 = 0 ∧
    (∀ new bcn, (s.pr.ring = .up ∧ h.last = some true ∧ new = BeaconHistory.mk (min 3 (h.returns + 1)) 0 (some false) ∨
        s.pr.ring = .up ∧ h.last = some false ∧ h.losses = 0 ∧ new = BeaconHistory.mk 0 1 (some false) ∨
        s.pr.ring = .forming ∧ h.last = some false ∧ new = BeaconHistory.mk 0 (min 2 (h.losses + 1)) (some false) ∨
        s.pr.ring = .forming ∧ h.last = some true ∧ h.returns < 2 ∧ new = BeaconHistory.mk (h.returns + 1) 0 (some false) ∨
        (s.pr.ring = .forming ∧ h.returns < 3 ∨ s.pr.ring = .up ∧ h.losses < 2) ∧ h.last = none ∧
          new = BeaconHistory.mk h.returns h.losses (some false)) →
      bcn = Beacon.mk ⟨s.tb.disc, s.tb.suspect⟩ s.tb.source (devOf s.tb.offset b) s.sq.runState s.joint →
      exec .beaconSend s = .next { s with
        now := { s.now with beacon := true }
        pr := { s.pr with history := new, round := s.pr.round + 1, own := some bcn }
        out := { s.out with ring := s.out.ring ++ [{ orig := s.pr.node, hop := 1, body := .beacon bcn }] } }) ∧
    (s.pr.ring = .forming → h.last = some true → 2 ≤ h.returns →
      ∃ t, exec .beaconSend s = .next t ∧ t.pr.ring = .up ∧ t.pr.membership = s.pr.memberSet ∧ s.SameRun t ∧ s.SameBase t ∧
        t.pr.members = s.pr.members) ∧
    (s.pr.ring = .up → h.last = some false → 1 ≤ h.losses →
      ∃ t, exec .beaconSend s = .next t ∧ t.pr.ring = .forming ∧ t.pr.timeSource = none ∧ s.SameBase t ∧
        t.pr.members = s.pr.members)

/-- Another node's message is forwarded with its hop count raised by 1. A BEACON is kept as its member's last; an EVENT of an
input sets the remote level, and its time quality the node's remote time flag. In a RUNNING run it meets the lowest trigger that
names it, here one of mode LOCAL, and at ACTIVE it trips or closes a breaker that has it as a source, the operating time
counting from the ET at which device time reaches that of the EVENT and the taking being at the present instant; a close that a
pole not OPEN or an active trip source forbids is refused with CLOSE_REFUSED, and an EVENT that is not ACTIVE, or outside a run,
leaves the breakers as they were (R60, R61, R106 to R113, R174). Its own records come before the PEER_EVENT of the EVENT (the
serial of a remembered trip is log 25's deduction, which events carry a trip number log 34's; the order of records, logs 14 and
26, an instant on a skipped count, log 82, and one beyond the half range of ET, log 38, are the model's). An EVENT of a breaker
leaves inputs, breakers, channels and measurements as they were; an ABORT of the run's joint id, and a DECLINE of this part's
standing proposal, end the run, a RUNNING one with PEER_ABORT. At each beacon that arrives in UP the time source is judged: the
lowest node whose last beacon shows PPS and LOCKED, or the lowest member; a change is reported. This part's own beacon is not
forwarded: it has returned, and it too brings the judgement (R159, R161 to R165, R171, R174). That a beacon is told to be the
last sent by its device time, and that this part's last beacon is the last it sent, is log 35's deduction; that another part's
beacon of the same node id and device time is taken for it is the model's choice, log 83. -/
def Obligations.BeaconsEventsAndAbortsArrive : Prop :=
  ∀ (s : State) (m : Message) (fwd : Message), fwd = { m with hop := m.hop + 1 } →
    (s.pins.resetN = true → s.pr.enable = true → s.pins.light = true → m.orig = s.pr.node → m.hop < 256 → m.body.Carries →
      ∀ (b : Beacon) (h : BeaconHistory), m.body = .beacon b →
        ((∃ own, s.pr.own = some own ∧ own.dev = b.dev) ∧ s.pr.history.last = some false ∧
            h = { s.pr.history with last := some true } ∨
          ¬((∃ own, s.pr.own = some own ∧ own.dev = b.dev) ∧ s.pr.history.last = some false) ∧ h = s.pr.history) →
        (s.pr.ring ≠ .up → s.pr.timeSource = none →
          exec (.beaconReceived m.bytes) s = .next { s with pr := { s.pr with history := h } }) ∧
        ∀ n, s.pr.ring = .up → s.pr.Chosen n →
          (s.pr.timeSource = some n → exec (.beaconReceived m.bytes) s = .next { s with pr := { s.pr with history := h } }) ∧
          (s.pr.timeSource ≠ some n →
            ∃ t, exec (.beaconReceived m.bytes) s = .next t ∧
              t = { s with pr := { s.pr with history := h, timeSource := some n }, rs := t.rs, notices := t.notices } ∧
              s.Recorded (.peerEvent (.source s.pr.timeSource (some n))) t ∧
              t.Notified s.notices.routes[7] (.ringState .up s.pr.memberSet (some n)))) ∧
    (s.Arrives m →
      (∀ b, m.body = .beacon b →
        ∃ t rest, exec (.beaconReceived m.bytes) s = .next t ∧ t.out.ring = s.out.ring ++ fwd :: rest ∧
          t.pr.members[m.orig] = some { beacon := b, seen := s.pr.round } ∧
          (∀ n r, r = { s.pr with members := upd s.pr.members m.orig (some { beacon := b, seen := s.pr.round }) } →
            s.pr.ring = .up → s.pr.members[m.orig] ≠ none → r.Chosen n → t.pr.timeSource = some n) ∧
          t.st = s.st ∧ t.ports = s.ports ∧ t.pins = s.pins ∧ t.pending = s.pending ∧
          (b.dev % 1000000 ≠ 0 → t.tb = s.tb)) ∧
      (∀ i l dev q, m.body = .event (.input i l) dev q →
        ∃ t rest, exec (.eventReceived m.bytes) s = .next t ∧ t.out.ring = s.out.ring ++ fwd :: rest ∧
          t.pr.levels = upd s.pr.levels m.orig (upd s.pr.levels[m.orig] i (some l)) ∧
          (inSet t.pr.poor m.orig.val = true ↔ q.disc ≠ .locked) ∧
          s.SameBase t ∧ s.SameRun t ∧ t.biu = { s.biu with driven := t.biu.driven } ∧
          (l = .inactive ∨ s.running = false → t.bs = s.bs)) ∧
      (∀ i l dev q remote, m.body = .event (.input i l) dev q → s.running = true →
        remote = RecordBody.peerEvent (.remote m.orig (.input i l) dev q) →
        (∀ n tr, s.Lowest (.remoteInput m.orig i l) n tr → tr.mode = .alone → s.MayExit →
          ∃ t, exec (.eventReceived m.bytes) s = .next t ∧
            t.sq.pendingTr = some { target := tr.target, cause := .trigger n, boundary := s.exitBoundary }) ∧
        (∀ k : Fin 4, l = .active →
          (∀ x, s.bs.TripsOnly k (.remoteInput m.orig i) x →
            ∃ t brings, exec (.eventReceived m.bytes) s = .next t ∧
              s.TripTaken k x.poles (s.reachOf dev) s.tb.et brings t ∧
              (s.Quiet → q.disc = .locked → s.RecordedAll (brings ++ [remote]) t)) ∧
          (s.bs.ClosesOnly k (.remoteInput m.orig i) →
            (s.bs.RemembersSound → polesAllOpen s.bs.breakers[k].poles = true →
              (∀ y ∈ s.bs.breakers[k].cfg.trips, s.sourceActive y.source = false) →
              ∃ t brings, exec (.eventReceived m.bytes) s = .next t ∧
                s.CloseTaken k (s.reachOf dev) s.tb.et brings t ∧
                (s.Quiet → q.disc = .locked → s.RecordedAll (brings ++ [remote]) t)) ∧
            (∀ reason, s.RefusesClose k reason →
              ∃ t, exec (.eventReceived m.bytes) s = .next t ∧ t.bs = s.bs ∧
                (s.Quiet → q.disc = .locked → s.RecordedAll [refusedRecord k s.tb.et reason, remote] t))))) ∧
      (∀ k pole e dev q, m.body = .event (.breaker k pole e) dev q →
        ∃ t, exec (.eventReceived m.bytes) s = .next t ∧ t.out = { s.out with ring := s.out.ring ++ [fwd] } ∧
          t.pr = { s.pr with poor := t.pr.poor } ∧ s.SameBase t ∧ s.SameRun t ∧ t.biu = s.biu ∧ t.bs = s.bs ∧ t.ws = s.ws ∧
          t.mu = s.mu) ∧
      (∀ j cause, m.body = .abort j cause →
        ((j = 0 ∨ j ≠ s.joint) → exec (.abortReceived m.bytes) s =
          .next { s with out := { s.out with ring := s.out.ring ++ [fwd] } }) ∧
        (j ≠ 0 → j = s.joint →
          ∃ t rest, exec (.abortReceived m.bytes) s = .next t ∧ t.out.ring = s.out.ring ++ fwd :: rest ∧ s.SameBase t ∧
            (s.sq.runState = .running → t.ClosedWith .peerAbort) ∧
            (s.sq.runState = .armed → t.sq.runState = .idle ∧ t.sq.owner = none ∧ t.rs.reserve = 0))) ∧
      (∀ j number own, m.body = .decline j s.pr.node number → j ≠ 0 → j = s.joint → s.pr.proposal.role = .proposer →
        s.pr.proposal.prop = some own → own.number = number →
        ∃ t rest, exec (.declineReceived m.bytes) s = .next t ∧ t.out.ring = s.out.ring ++ fwd :: rest ∧ s.SameBase t ∧
          (s.sq.runState = .running → t.ClosedWith .peerAbort) ∧
          (s.sq.runState = .armed → t.sq.runState = .idle ∧ t.sq.owner = none ∧ t.rs.reserve = 0)))

/-- Proposals over an UP ring. A PROPOSE that suits a run with no role is answered ACCEPT, and the run is pledged; one of mode
PEER_WAIT in a state without a PEER trigger is deferred; a START of another joint id, or to a RUNNING run, and a slot proposal
to an ARMED run are answered DECLINE. Where a transition is decided or a COMMIT stands, the PROPOSE waits, the lowest node's
first (R167). A run that defers a proposal answers one of a lower node so, drops the deferred one, and passes one of a higher
node by (R172); that it answers one of the same node so is log 21's deduction. Of two proposals that cross, the lower node's
stands: a proposer and a pledged run yield to it with ACCEPT, and pass a higher one by (R172; that it is never declined, log
21). The last ACCEPT makes the proposer send COMMIT 2,000 µs ahead. A COMMIT gives a pledged run its t_c, late where its
boundary has passed; a WITHDRAW ends a pledge, releasing the held trigger to the next boundary, or a deferral (R168 to R170; log
23). A proposal with ACCEPTs missing 100,000 ticks after its PROPOSE ends the run (R171); that PROPOSAL_TIMEOUT does nothing
before then is the model's choice, log 4. -/
def Obligations.ProposalsAreAnsweredAndCommitted : Prop :=
  ∀ (s : State) (m : Message) (fwd : Message), s.Arrives m → s.pr.ring = .up → fwd = { m with hop := m.hop + 1 } →
    (∀ j n target, m.body = .propose j n target .preempt → j ≠ 0 → j = s.joint → s.Answers m.orig →
      s.sq.pendingTr = none → s.sq.heldDue = none →
      (s.sq.runState = .armed ∧ target = none ∨ s.sq.runState = .running ∧ target.isSome = true) →
      ∃ t, exec (.proposeReceived m.bytes) s = .next t ∧ t.sq = s.sq ∧ s.SameBase t ∧
        t.pr = { s.pr with proposal := { ProposalState.idle with
          role := .pledged, prop := some { proposer := m.orig, number := n, target := target, mode := .preempt } } } ∧
        t.out = { s.out with ring := s.out.ring ++ [fwd, { orig := s.pr.node, hop := 1, body := .accept j m.orig n }] }) ∧
    (∀ j n k x, m.body = .propose j n (some k) .wait → j ≠ 0 → j = s.joint → s.Answers m.orig →
      s.sq.pendingTr = none → s.sq.heldDue = none → s.sq.runState = .running →
      x = { proposer := m.orig, number := n, target := some k, mode := .wait } →
      ((∃ tr ∈ s.triggers, tr.cond = .peer) →
        ∃ t, exec (.proposeReceived m.bytes) s = .next t ∧ t.sq = s.sq ∧ s.SameBase t ∧ s.Recorded (.peerEvent (.accepted x)) t ∧
          t.pr = { s.pr with proposal := { ProposalState.idle with role := .pledged, prop := some x } } ∧
          t.out = { s.out with ring := s.out.ring ++ [fwd, { orig := s.pr.node, hop := 1, body := .accept j m.orig n }] }) ∧
      ((∀ tr ∈ s.triggers, tr.cond ≠ .peer) →
        ∃ t, exec (.proposeReceived m.bytes) s = .next t ∧ t.sq = s.sq ∧ s.SameBase t ∧ s.Recorded (.peerEvent (.deferred x)) t ∧
          t.pr = { s.pr with proposal := { ProposalState.idle with role := .deferred, prop := some x } } ∧
          t.out = { s.out with ring := s.out.ring ++ [fwd] })) ∧
    (∀ j n target mode, m.body = .propose j n target mode → j ≠ 0 → j = s.joint → s.Answers m.orig →
      s.sq.pendingTr = none → s.sq.heldDue = none →
      (s.sq.runState = .running ∧ target = none ∨ s.sq.runState = .armed ∧ target.isSome = true) →
      ∃ t, exec (.proposeReceived m.bytes) s = .next t ∧ t.sq = s.sq ∧ s.SameBase t ∧
        t.pr = { s.pr with proposal := ProposalState.idle } ∧
        t.out = { s.out with ring := s.out.ring ++ [fwd, { orig := s.pr.node, hop := 1, body := .decline j m.orig n }] }) ∧
    (∀ j n target mode x, m.body = .propose j n target mode → j ≠ 0 → j = s.joint →
      x = { proposer := m.orig, number := n, target := target, mode := mode } →
      (s.pr.proposal.tc.isSome = true ∨ s.pr.proposal = ProposalState.idle ∧ s.sq.pendingTr.isSome = true) →
      exec (.proposeReceived m.bytes) s = .next { s with
        pr := { s.pr with waiting :=
          if ∃ w, s.pr.waiting = some w ∧ w.proposer ≤ m.orig then s.pr.waiting else some x }
        out := { s.out with ring := s.out.ring ++ [fwd] } }) ∧
    (∀ j n target mode own, m.body = .propose j n target mode → j ≠ 0 → j = s.joint → s.pr.proposal.tc = none →
      s.pr.proposal.role = .deferred → s.pr.proposal.prop = some own → own.proposer < m.orig →
      exec (.proposeReceived m.bytes) s = .next { s with out := { s.out with ring := s.out.ring ++ [fwd] } }) ∧
    (∀ j n target mode own x, m.body = .propose j n target mode → j ≠ 0 → j = s.joint → s.pr.proposal.tc = none →
      (s.pr.proposal.role = .proposer ∨ s.pr.proposal.role = .pledged) → s.pr.proposal.prop = some own →
      x = { proposer := m.orig, number := n, target := target, mode := mode } →
      (own.proposer < m.orig →
        ∃ t, exec (.proposeReceived m.bytes) s = .next t ∧ t.sq = s.sq ∧ s.SameBase t ∧ t.pr = s.pr ∧
          t.out = { s.out with ring := s.out.ring ++ [fwd] } ∧
          s.RecordedAll (if s.pr.proposal.role = .proposer then
            [.peerEvent (.crossed own x true (decide (own.target = target ∧ own.mode = mode)))] else []) t) ∧
      (m.orig < own.proposer →
        ∃ t, exec (.proposeReceived m.bytes) s = .next t ∧ t.sq = { s.sq with heldDue := none } ∧ s.SameBase t ∧
          t.pr = { s.pr with proposal := { ProposalState.idle with role := .pledged, prop := some x } } ∧
          t.out = { s.out with ring := s.out.ring ++ [fwd, { orig := s.pr.node, hop := 1, body := .accept j m.orig n }] } ∧
          s.RecordedAll ((if s.pr.proposal.role = .proposer then
              [.peerEvent (.crossed own x false (decide (own.target = target ∧ own.mode = mode)))] else []) ++
            [.peerEvent (.accepted x)]) t)) ∧
    (∀ j n, m.body = .propose j n none .preempt → (j = 0 ∨ j ≠ s.joint) →
      ∃ t, exec (.proposeReceived m.bytes) s = .next t ∧ t.sq = s.sq ∧ s.SameBase t ∧ t.pr = s.pr ∧
        t.out = { s.out with ring := s.out.ring ++ [fwd, { orig := s.pr.node, hop := 1, body := .decline j m.orig n }] }) ∧
    (∀ j n own left, m.body = .accept j s.pr.node n → j ≠ 0 → j = s.joint → s.pr.proposal.role = .proposer →
      s.pr.proposal.prop = some own → own.number = n → s.pr.proposal.tc = none →
      left = setMember s.pr.proposal.toAccept m.orig.val false →
      (left ≠ 0 → exec (.acceptReceived m.bytes) s = .next { s with
        pr := { s.pr with proposal := { s.pr.proposal with toAccept := left } }
        out := { s.out with ring := s.out.ring ++ [fwd] } }) ∧
      (left = 0 → ∀ tc, tc = (s.dev + 2000) % devModulus →
        exec (.acceptReceived m.bytes) s = .next { s with
          pr := { s.pr with proposal := { s.pr.proposal with toAccept := 0, tc := some tc } }
          out := { s.out with ring := s.out.ring ++ [fwd, { orig := s.pr.node, hop := 1, body := .commit j n tc }] } })) ∧
    (∀ j n x tc, m.body = .commit j n tc → j ≠ 0 → j = s.joint → s.pr.proposal.role = .pledged →
      s.pr.proposal.prop = some x → x.proposer = m.orig → x.number = n → s.pr.proposal.tc = none →
      exec (.commitReceived m.bytes) s = .next { s with
        pr := { s.pr with proposal := { s.pr.proposal with
          tc := some tc
          late := if Tick.lt (s.boundaryAtOrAfter (s.reachOf tc)) s.nextBoundary then some s.tb.et else none } }
        out := { s.out with ring := s.out.ring ++ [fwd] } }) ∧
    (∀ j n x, m.body = .withdraw j n → j ≠ 0 → j = s.joint → s.pr.proposal.role = .deferred →
      s.pr.proposal.prop = some x → x.proposer = m.orig → x.number = n →
      ∃ t, exec (.withdrawReceived m.bytes) s = .next t ∧ s.SameBase t ∧ t.sq = s.sq ∧
        t.pr = { s.pr with proposal := ProposalState.idle } ∧
        s.Recorded (.peerEvent (.withdrawn x)) t ∧ t.out = { s.out with ring := s.out.ring ++ [fwd] }) ∧
    (∀ j n x, m.body = .withdraw j n → j ≠ 0 → j = s.joint → s.pr.proposal.role = .pledged →
      s.pr.proposal.prop = some x → x.proposer = m.orig → x.number = n →
      ∃ t, exec (.withdrawReceived m.bytes) s = .next t ∧ s.SameBase t ∧
        t.pr = { s.pr with proposal := ProposalState.idle } ∧
        t.sq = { s.sq with heldDue := s.sq.held.map (fun _ => s.followingBoundary) } ∧
        s.Recorded (.peerEvent (.withdrawn x)) t ∧ t.out = { s.out with ring := s.out.ring ++ [fwd] }) ∧
    (∀ x at', s.pr.proposal.role = .proposer → s.pr.proposal.prop = some x → x.mode = .preempt →
      s.pr.proposal.toAccept ≠ 0 → s.pr.proposal.sentAt = some at' →
      ((s.tb.et - at').toNat < 100000 → exec .proposalTimeout s = .next s) ∧
      (100000 ≤ (s.tb.et - at').toNat →
        (s.sq.runState = .running →
          ∃ t, exec .proposalTimeout s = .next t ∧ t.ClosedWith .peerAbort ∧ s.SameBase t) ∧
        (s.sq.runState = .armed →
          ∃ t, exec .proposalTimeout s = .next t ∧ t.sq.runState = .idle ∧ t.sq.owner = none ∧ t.rs.reserve = 0 ∧
            s.SameBase t)))

/-! ### The ports -/

/-- The other READ commands answer OK with their pictures and change nothing (R29, R73, R99, R139, R175). READ INPUTS gives the
picture of the last sampling instant, the present one once its sample is taken, and READ CHANNELS that of the last frame boundary;
that it is the last one, and that the others are taken at the present instant, is the model's choice, log 37. That READ RING shows
the own node last seen in the present round is another, log 73. READ
MEASUREMENTS gives the expiry of NO_OPERATE alone and the history of VALUE alone (log 68). In an ARMED joint run whose START was
committed READ RUN shows the boundary at which the run will start, and of a slot proposal none (R51, R58; logs 21, 38 and 46). -/
def Obligations.ReadCommandsOnlyAnswer : Prop :=
  ∀ (s : State) (p : Port) (tag : Byte), s.Takes p →
    (∃ v : InputsPicture, exec (.readInputs p tag) s = .next (s.replied p tag .ok (.inputs v)) ∧
      v = s.inputsPicture ∧ (s.now.sampled = none → v = s.biu.shown) ∧
      ∀ at', s.now.sampled = some at' → v.funcs = s.biu.funcs ∧ v.driven = s.biu.driven ∧ v.rest = s.biu.rest ∧
      ∀ i : Fin 16, v.inputs[i] = InputPicture.mk s.biu.inputs[i].cfg s.biu.inputs[i].raw s.biu.inputs[i].stable
        s.biu.inputs[i].published (s.biu.inputs[i].cand.map (fun c => (c.tFirst, c.bounces))) s.biu.inputs[i].chattering
        (s.biu.inputs[i].edges.filter (fun e => decide ((at' - e).toNat < 1000000))).length) ∧
    exec (.readChannels p tag) s = .next (s.replied p tag .ok (.channels s.ws.shown)) ∧
    (∀ v, s.showChannels.ws.shown = v →
      v.ramp = s.ws.ramp ∧ v.ref = s.ws.ref ∧ v.nominalInc = s.ws.nominalInc ∧ v.slhold = s.pins.slhold ∧
      v.kept = s.ws.kept.isSome ∧ v.lastFrame = s.ws.lastFrame ∧ v.replaced = s.ws.replaced ∧
      ∀ c : Fin 10, v.channels[c] = ChannelPicture.mk s.ws.channels[c].decl s.ws.channels[c].forced s.ws.channels[c].gain
        s.ws.channels[c].phaseTrim s.ws.channels[c].offset s.ws.channels[c].mag s.ws.channels[c].angle s.ws.channels[c].freq
        s.ws.channels[c].amp s.ws.channels[c].dc s.ws.channels[c].outLast s.ws.channels[c].intr s.ws.channels[c].saturated) ∧
    (∃ v : Vector MeasPicture 32, exec (.readMeasurements p tag) s = .next (s.replied p tag .ok (.measurements v)) ∧
      ∀ m : Fin 32, v[m] = MeasPicture.mk s.mu.meas[m].definition s.mu.meas[m].live s.mu.meas[m].occ s.mu.meas[m].start
        s.mu.meas[m].stop
        (match s.mu.meas[m].definition.map MeasDef.kind with
          | some (.noOperate _) => s.mu.meas[m].expiry
          | _ => none)
        (match s.mu.meas[m].definition.map MeasDef.kind with
          | some (.value _ _ _ _ _) => some (HistoryPicture.mk s.mu.meas[m].history.length
              s.mu.meas[m].history.getLast? s.mu.meas[m].truncated)
          | _ => none)
        s.mu.meas[m].result) ∧
    (∃ v : RunPicture, exec (.readRun p tag) s = .next (s.replied p tag .ok (.run v)) ∧
      v.runState = s.sq.runState ∧
      v.run = (if s.sq.runState = .armed ∨ s.sq.runState = .running then s.sq.lastRun else 0) ∧ v.owner = s.sq.owner ∧
      v.options = s.sq.options ∧ (s.pr.proposal.tc = none → v.startPending = s.sq.startPending) ∧
      (∀ tc p, s.sq.runState = .armed → s.sq.startPending = none → s.pr.proposal.tc = some tc → s.pr.proposal.prop = some p →
        (p.target.isSome = true → v.startPending = none) ∧
        (p.target = none →
          (s.pr.proposal.late = none → v.startPending = some (s.comingBoundary (s.reachOf tc))) ∧
          ∀ x, s.pr.proposal.late = some x → v.startPending = some (s.comingBoundary (x + 1)))) ∧
      v.startInstant = s.sq.startInstant ∧ v.active = s.sq.active ∧ v.entryBoundary = s.sq.entryBoundary ∧
      v.count = s.sq.count ∧ v.pendingTr = s.sq.pendingTr ∧ v.held = s.sq.held ∧ v.streamEnable = s.sq.streamEnable ∧
      v.lastClose = s.sq.lastClose ∧ v.impairments = s.sq.impairments ∧ v.overflow = s.sq.overflow) ∧
    (∃ v : RingPicture, exec (.readRing p tag) s = .next (s.replied p tag .ok (.ring v)) ∧
      v.node = s.pr.node ∧ v.enable = s.pr.enable ∧ v.light = s.pins.light ∧ v.ring = s.pr.ring ∧ v.history = s.pr.history ∧
      v.members = s.pr.members ∧
      v.own = (if s.pr.enable then s.pr.own.map (fun b => { beacon := b, seen := s.pr.round }) else none) ∧
      v.timeSource = s.pr.timeSource ∧ v.levels = s.pr.levels ∧ v.poor = s.pr.poor ∧
      v.proposal = s.pr.proposal ∧ v.waiting = s.pr.waiting ∧ v.nextNumber = s.pr.nextNumber ∧ v.unsent = s.pr.unsent ∧
      ∀ n : Fin 4, inSet v.memberSet n.val = true ↔
        s.pr.members[n].isSome = true ∨ s.pr.enable = true ∧ n = s.pr.node)

/-- READ NOTICES answers every entry of its port's set in priority order, empties the set and releases the line, the other port's
untouched; ROUTE NOTICE replaces the route of one of the nine routable kinds and answers the old one (R184, R185). -/
def Obligations.NoticesAreReadAndRouted : Prop :=
  ∀ (s : State) (p : Port) (tag : Byte), s.Takes p →
    exec (.readNotices p tag) s = .next (State.replied
      { s with notices := s.notices.put p { entries := Vector.replicate 11 none, attn := false } } p tag .ok
      (.notices ((List.finRange 11).filterMap (fun k => (s.notices.get p).entries[k])))) ∧
    (∀ kind route, (9 ≤ kind ∨ 4 ≤ route) →
      exec (.routeNotice p tag kind route) s = .next (s.replied p tag .badField .empty)) ∧
    (∀ (kind : Fin 9) (code : Nat) (r : Route),
      (code = 0 ∧ r = .cp ∨ code = 1 ∧ r = .ap ∨ code = 2 ∧ r = .both ∨ code = 3 ∧ r = .nowhere) →
      exec (.routeNotice p tag kind.val code) s = .next (State.replied
        { s with notices := { s.notices with routes := upd s.notices.routes kind r } } p tag .ok
        (.route s.notices.routes[kind])))

/-- R186: RAISE TEST NOTICE places TEST with its value on the issuing port alone and asserts that port's line, whatever else
stands; the reply is OK, and READ NOTICES then returns TEST last. -/
def Obligations.TestNoticeIsRaised : Prop :=
  ∀ (s : State) (p : Port) (tag : Byte) (v : BitVec 32), s.Takes p →
    ∃ (e : NoticeEntry) (n : Notices), e.detail = .test v ∧
      ((s.notices.get p).entries[10] = none → e.count = 1) ∧
      (∀ old, (s.notices.get p).entries[10] = some old → e.count = min 255 (old.count + 1)) ∧
      n = { entries := upd (s.notices.get p).entries 10 (some e), attn := true } ∧
      exec (.raiseTestNotice p tag v) s = .next (State.replied { s with notices := s.notices.put p n } p tag .ok .empty) ∧
      ((s.port p).queue.length < 3 → ∀ tag', ∃ t l,
        exec (.readNotices p tag') (State.replied { s with notices := s.notices.put p n } p tag .ok .empty) = .next t ∧
        (t.port p).queue.getLast? = some { tag := tag', code := .ok, body := .notices l } ∧ l.getLast? = some e)

/-- RESTART completes in every run state: it ends any run; the sequencer, breakers, inputs, ring and ports take their warm
values by the level of ESTOP_N. Every pole is CLOSED with nothing pending or remembered and no failure, the counters are 0; the
ring has no own-beacon history, members, remote levels, remote time flags, time source, role, proposal or answer waiting, and
its state follows the enable and light; the pending sets keep only what the RESTART itself raises, RING_STATE, SPACE_LOW and
REPORT_READY (R75, R122, R177, R188). A measurement that waits becomes INACTIVE where an ARMED run ends, and NOT_RUN where a
RUNNING run does, as a TIMING NO_OPERATE one does, another TIMING one being NOT_OPERATED; a result that stands is kept (R135,
R141). Time base, table, declarations, configurations, readers, routes and the RUN_REPORT values are kept; a transaction in
progress on a port is cut; its reply, with the number of the run ended, is the only one in the queues (R34, R75, R101, R122,
R157, R177, R188). The reply names the START_UP record that it commits, and none where the store drops that record (R148, R157,
R188). A change of ring state that it makes, and of the time source, is reported after START_UP (R164, R177; the source, log
42's deduction). That the options, the start instant, the list and the overflow mark of a run that has ended stay is log 49's
deduction, and the round count, which says when a member is gone and begins anew, is the model's own (log 17). The model's
choices are that the levels of an input stay as they were until its first sample after the RESTART (log 8), that a transaction
left open on the issuing port is cut as one on the other is (log 52), that the pictures of READ INPUTS and READ CHANNELS stay
until the next instant (log 37), that the next proposal number and the unsent event count become 0 (log 74), and that one which
finds ESTOP_N low without its fall takes no emergency stop (log 80). -/
def Obligations.RestartIsWarm : Prop :=
  ∀ (s : State) (p : Port) (tag : Byte) (e : Bool), s.Takes p →
    ∃ (t : State) (seq : Option SeqNo), exec (.restart p tag e) s = .next t ∧
      t.sq.runState = (if e then .idle else .inhibited) ∧ t.sq.streamEnable = e ∧ t.sq.owner = none ∧ t.sq.active = none ∧
      t.sq.entryBoundary = none ∧ t.sq.pendingTr = none ∧ t.sq.held = none ∧ t.sq.startPending = none ∧
      t.sq.lastRun = s.sq.lastRun ∧ t.sq.impairments = (if s.running then s.sq.impairments.map (fun i =>
        if i.stop = none then { i with stop := some s.tb.et } else i) else s.sq.impairments) ∧
      t.sq.options = s.sq.options ∧ t.sq.startInstant = s.sq.startInstant ∧ t.sq.count = s.sq.count ∧
      t.sq.lastClose = (if s.running then some .restart else s.sq.lastClose) ∧ t.sq.overflow = s.sq.overflow ∧
      t.tb = s.tb ∧ t.st = s.st ∧ t.pins = { s.pins with estopN := e } ∧ t.pending = s.pending ∧
      (t.port p).queue = [Reply.mk tag .ok
        (.restarted (if s.sq.runState = .armed ∨ s.sq.runState = .running then s.sq.lastRun else 0) seq)] ∧
      (∀ q, (t.port q).framing = none ∧ (t.port q).overrun = false ∧ (t.port q).lost = 0 ∧ (q ≠ p → (t.port q).queue = [])) ∧
      (∀ q, t.out.get q = match (s.port q).framing with
        | some o => { s.out.get q with cut := some o }
        | none => s.out.get q) ∧
      t.notices.routes = s.notices.routes ∧ t.rs.cpReader = s.rs.cpReader ∧ t.rs.apReader = s.rs.apReader ∧
      (∀ i : Fin 16, t.biu.inputs[i] = { s.biu.inputs[i] with
        cand := none, edges := [], lastEdge := none, chattering := false, resample := true }) ∧
      t.biu.funcs = s.biu.funcs ∧ t.biu.rest = s.biu.rest ∧
      (∀ c : Fin 10, t.ws.channels[c].decl = s.ws.channels[c].decl ∧ t.ws.channels[c].forced = s.ws.channels[c].forced ∧
        t.ws.channels[c].gain = s.ws.channels[c].gain ∧ t.ws.channels[c].phaseTrim = s.ws.channels[c].phaseTrim ∧
        t.ws.channels[c].offset = s.ws.channels[c].offset) ∧
      t.ws.ref = s.ws.ref ∧ t.ws.kept = s.ws.kept ∧ t.ws.lastFrame = s.ws.lastFrame ∧ t.ws.replaced = s.ws.replaced ∧
      (∀ k : Fin 4, t.bs.breakers[k].cfg = s.bs.breakers[k].cfg ∧ t.bs.breakers[k].trips = 0 ∧
        t.bs.breakers[k].closes = 0 ∧ ∀ q : Fin 3, t.bs.breakers[k].poles[q] =
          { state := .closed, pending := none, late := false, opTrip := none, remembered := none, failure := none }) ∧
      (∀ m : Fin 32, t.mu.meas[m].definition = s.mu.meas[m].definition ∧
        (s.sq.runState = .idle ∨ s.sq.runState = .inhibited → t.mu.meas[m] = s.mu.meas[m]) ∧
        (s.sq.runState = .armed → t.mu.meas[m] = { s.mu.meas[m] with
          live := if s.mu.meas[m].live = .waitingStart then .inactive else s.mu.meas[m].live }) ∧
        (s.sq.runState = .running →
          (s.mu.meas[m].live = .inactive ∨ s.mu.meas[m].live = .done → t.mu.meas[m] = s.mu.meas[m]) ∧
          ∀ d, s.mu.meas[m].definition = some d → s.mu.waiting = [] →
            (s.mu.meas[m].live = .waitingStart ∨ s.mu.meas[m].live = .timing) →
            t.mu.meas[m] = { s.mu.meas[m] with
              live := .done, stop := none
              result := some { run := s.sq.lastRun
                               outcome := match s.mu.meas[m].live, d.kind with
                                 | .waitingStart, _ => .notRun
                                 | _, .noOperate _ => .notRun
                                 | _, _ => .notOperated
                               value := none, band := d.kind.band, start := s.mu.meas[m].start, stop := none
                               determined := s.tb.et, tq := ⟨s.tb.disc, s.tb.suspect⟩, deciding := none } })) ∧
      t.biu.shown = s.biu.shown ∧ t.ws.shown = s.ws.shown ∧
      t.pr = { node := s.pr.node, enable := s.pr.enable
               ring := if s.pr.enable && s.pins.light then .forming else .down
               history := { returns := 0, losses := 0, last := none }, members := Vector.replicate 4 none, round := 0
               own := none, membership := 0, timeSource := none
               levels := Vector.replicate 4 (Vector.replicate 16 none), poor := 0
               proposal := { role := .idle, prop := none, toAccept := 0, sentAt := none, tc := none, late := none }
               waiting := none, nextNumber := 0, unsent := 0 } ∧
      (∀ q : Port, (∀ k : Fin 11, k.val < 7 ∨ k = 10 → (t.notices.get q).entries[k] = none) ∧
        (t.pr.ring = s.pr.ring → s.pr.timeSource = none → (t.notices.get q).entries[7] = none) ∧
        ((s.sq.runState = .idle ∨ s.sq.runState = .inhibited) → t.pr.ring = s.pr.ring → s.pr.timeSource = none → seq ≠ none →
          (s.rs.low = true ∨ 4096 ≤ t.rs.available) → (t.notices.get q).entries[8] = none) ∧
        ((s.rs.reader q).subscribed = false → (t.notices.get q).entries[9] = none) ∧
        ((s.rs.reader q).subscribed = true → seq ≠ none → ∃ x last, (t.notices.get q).entries[9] = some x ∧
          x.detail = .reportReady last ∧ t.rs.records.getLast?.map Record.seq = some last)) ∧
      (t.pr.ring ≠ s.pr.ring ∨ s.pr.timeSource ≠ none →
        t.Notified s.notices.routes[7] (.ringState t.pr.ring t.pr.memberSet none)) ∧
      (s.rs.Numbered → s.SpaceSound →
        (∀ n, seq = some n →
          (∃ r ∈ t.rs.records, r.seq = n ∧ r.run = 0 ∧ r.body = .startUp true s.stamp) ∧ ∀ r ∈ s.rs.records, r.seq ≠ n) ∧
        (seq = none → ∀ r ∈ t.rs.records, r.body = .startUp true s.stamp → r ∈ s.rs.records) ∧
        ((s.sq.runState = .idle ∨ s.sq.runState = .inhibited) →
          ((∃ gone, s.rs.RoomAfter 24 gone) → seq = some s.rs.nextSeq) ∧ ((∀ gone, ¬s.rs.RoomAfter 24 gone) → seq = none))) ∧
      ((s.sq.runState = .idle ∨ s.sq.runState = .inhibited) → s.RecordedAll
        ([.startUp true s.stamp] ++
          (if s.pr.ring = t.pr.ring then [] else [.peerEvent (.ring s.pr.ring t.pr.ring)]) ++
          (if s.pr.timeSource = none then [] else [.peerEvent (.source s.pr.timeSource none)])) t)

/-- A transaction begins with the head of the reply queue, or the empty reply, and sends it on the port's data output, fill
bytes of all ones after its end; at its end a reply sent in full leaves the queue, one cut short stays, and OVERRUN is cleared
with the reply that carried it; then a frame with a bad length or check is answered BAD_FRAME, a poll not at all, and a code
that names no command BAD_COMMAND. At a queue still full every frame but a poll is lost and counted. RESET_N low cuts the
transactions: from the bytes clocked by then on, which TRANSACTION_END carries (log 52), the rest is fill; it drives the outputs
inactive and the attention lines high (R178 to R180, R187). The model's choices are that a TRANSACTION_START inside a
transaction changes nothing, and that a TRANSACTION_END with none begun sends fill and does no more (log 4), and that the bytes
of a transaction, and what the data output sends meanwhile, come at its end (log 30). -/
def Obligations.TransactionsAndReset : Prop :=
  ∀ s : State,
    (s.pins.resetN = true → ∀ p : Port,
      ((s.port p).framing = none →
        ((s.port p).queue = [] → exec (.transactionStart p) s =
          .next (s.setPort p { s.port p with framing := some .emptyReply })) ∧
        (∀ r rest, (s.port p).queue = r :: rest → exec (.transactionStart p) s =
          .next (s.setPort p { s.port p with
            framing := some (.reply r (if (s.port p).overrun then some (s.port p).lost else none)) })) ∧
        ∀ (x : Transfer) (e : Bool),
          exec (.transactionEnd p x e) s = .next (s.clockOut p x) ∧
          ((s.out.get p).cut = none → s.clockOut p x = { s with
            out := s.out.put p { s.out.get p with sent := (s.out.get p).sent ++ List.replicate x.bytes.length 255 } }) ∧
          ∀ o, (s.out.get p).cut = some o → s.clockOut p x = { s with
            out := s.out.put p { s.out.get p with
              sent := (s.out.get p).sent ++ ((o.bytes.take x.byCut ++ List.replicate x.bytes.length 255).take x.bytes.length)
              cut := none } }) ∧
      ∀ o, (s.port p).framing = some o →
        exec (.transactionStart p) s = .next s ∧
        (∀ x, s.clockOut p x = { s with
          out := s.out.put p { s.out.get p with
            sent := (s.out.get p).sent ++ ((o.bytes ++ List.replicate x.bytes.length 255).take x.bytes.length)
            cut := none } }) ∧
        (∀ e byCut, exec (.transactionEnd p ⟨[], byCut⟩ e) s =
          .next (State.setPort (s.clockOut p ⟨[], byCut⟩) p { s.port p with framing := none })) ∧
        ∀ (x : Transfer) (l : List Byte) (e : Bool) (u : Transport), x.bytes = l → l ≠ [] →
          ((o = .emptyReply ∨ l.length < o.length) ∧ u = { s.port p with framing := none } ∨
            (∃ r, o = .reply r none) ∧ o.length ≤ l.length ∧
              u = { s.port p with framing := none, queue := (s.port p).queue.tail } ∨
            (∃ r n, o = .reply r (some n)) ∧ o.length ≤ l.length ∧
              u = { framing := none, queue := (s.port p).queue.tail, overrun := false, lost := 0 }) →
          (∀ f, CommandFrame.ofBytes l = some f → f.code = 0 → exec (.transactionEnd p x e) s =
            .next (State.setPort (s.clockOut p x) p u)) ∧
          (4 ≤ u.queue.length → (∀ f, CommandFrame.ofBytes l = some f → f.code ≠ 0) →
            exec (.transactionEnd p x e) s = .next (State.setPort (s.clockOut p x) p
              { u with overrun := true, lost := min 255 (u.lost + 1) })) ∧
          (u.queue.length < 4 →
            (CommandFrame.ofBytes l = none → exec (.transactionEnd p x e) s =
              .next ((State.setPort (s.clockOut p x) p u).replied p
                (if 2 ≤ l.length then l.getD 1 0 else 0) .badFrame .empty)) ∧
            (∀ f, CommandFrame.ofBytes l = some f → 39 < f.code → exec (.transactionEnd p x e) s =
              .next ((State.setPort (s.clockOut p x) p u).replied p f.tag .badCommand .empty)))) ∧
    ∀ cp ap : DataOutput,
      (∀ p d, (p = Port.cp ∧ d = cp ∨ p = .ap ∧ d = ap) →
        d = match (s.port p).framing with
          | some o => { s.out.get p with cut := some o }
          | none => s.out.get p) →
      exec .resetAssert s = .next { s with
        pins := { s.pins with resetN := false }, biu := { s.biu with driven := 0 }
        out := { s.out with cp := cp, ap := ap }
        ports := { cp := { s.ports.cp with framing := none }, ap := { s.ports.ap with framing := none } }
        notices := { s.notices with
          cp := { s.notices.cp with attn := false }, ap := { s.notices.ap with attn := false } } }
end

