-- ==== Sys2Proof/Laws/State.lean ====
section
/-! SUPPORT. What each update of one part of the state leaves unchanged, field by field, as one simp lemma per update; and
what the updated part is. -/

namespace Sys2Proof.Machine

@[simp] theorem State.putInput_keeps (s : State) (i : Fin 16) (x : Input) :
    (s.putInput i x).tb = s.tb ∧ (s.putInput i x).now = s.now ∧ (s.putInput i x).st = s.st ∧
    (s.putInput i x).sq = s.sq ∧ (s.putInput i x).ws = s.ws ∧ (s.putInput i x).bs = s.bs ∧
    (s.putInput i x).mu = s.mu ∧ (s.putInput i x).rs = s.rs ∧ (s.putInput i x).pr = s.pr ∧
    (s.putInput i x).ports = s.ports ∧ (s.putInput i x).notices = s.notices ∧ (s.putInput i x).pins = s.pins ∧
    (s.putInput i x).out = s.out ∧ (s.putInput i x).pending = s.pending := by
  simp [State.putInput]

@[simp] theorem State.putSlot_keeps (s : State) (k : Fin 64) (r : Option StateRecord) :
    (s.putSlot k r).tb = s.tb ∧ (s.putSlot k r).now = s.now ∧ (s.putSlot k r).biu = s.biu ∧
    (s.putSlot k r).sq = s.sq ∧ (s.putSlot k r).ws = s.ws ∧ (s.putSlot k r).bs = s.bs ∧ (s.putSlot k r).mu = s.mu ∧
    (s.putSlot k r).rs = s.rs ∧ (s.putSlot k r).pr = s.pr ∧ (s.putSlot k r).ports = s.ports ∧
    (s.putSlot k r).notices = s.notices ∧ (s.putSlot k r).pins = s.pins ∧ (s.putSlot k r).out = s.out ∧
    (s.putSlot k r).pending = s.pending := by
  simp [State.putSlot]

@[simp] theorem State.putChannel_keeps (s : State) (c : Fin 10) (x : Channel) :
    (s.putChannel c x).tb = s.tb ∧ (s.putChannel c x).now = s.now ∧ (s.putChannel c x).biu = s.biu ∧
    (s.putChannel c x).st = s.st ∧ (s.putChannel c x).sq = s.sq ∧ (s.putChannel c x).bs = s.bs ∧
    (s.putChannel c x).mu = s.mu ∧ (s.putChannel c x).rs = s.rs ∧ (s.putChannel c x).pr = s.pr ∧
    (s.putChannel c x).ports = s.ports ∧ (s.putChannel c x).notices = s.notices ∧ (s.putChannel c x).pins = s.pins ∧
    (s.putChannel c x).out = s.out ∧ (s.putChannel c x).pending = s.pending := by
  simp [State.putChannel]

@[simp] theorem State.putBreaker_keeps (s : State) (k : Fin 4) (b : Breaker) :
    (s.putBreaker k b).tb = s.tb ∧ (s.putBreaker k b).now = s.now ∧ (s.putBreaker k b).biu = s.biu ∧
    (s.putBreaker k b).st = s.st ∧ (s.putBreaker k b).sq = s.sq ∧ (s.putBreaker k b).ws = s.ws ∧
    (s.putBreaker k b).mu = s.mu ∧ (s.putBreaker k b).rs = s.rs ∧ (s.putBreaker k b).pr = s.pr ∧
    (s.putBreaker k b).ports = s.ports ∧ (s.putBreaker k b).notices = s.notices ∧ (s.putBreaker k b).pins = s.pins ∧
    (s.putBreaker k b).out = s.out ∧ (s.putBreaker k b).pending = s.pending := by
  simp [State.putBreaker]

@[simp] theorem State.putPole_keeps (s : State) (k : Fin 4) (p : Fin 3) (x : Pole) :
    (s.putPole k p x).tb = s.tb ∧ (s.putPole k p x).now = s.now ∧ (s.putPole k p x).biu = s.biu ∧
    (s.putPole k p x).st = s.st ∧ (s.putPole k p x).sq = s.sq ∧ (s.putPole k p x).ws = s.ws ∧
    (s.putPole k p x).mu = s.mu ∧ (s.putPole k p x).rs = s.rs ∧ (s.putPole k p x).pr = s.pr ∧
    (s.putPole k p x).ports = s.ports ∧ (s.putPole k p x).notices = s.notices ∧ (s.putPole k p x).pins = s.pins ∧
    (s.putPole k p x).out = s.out ∧ (s.putPole k p x).pending = s.pending := by
  simp [State.putPole, State.putBreaker]

@[simp] theorem State.putMeas_keeps (s : State) (m : Fin 32) (x : Measurement) :
    (s.putMeas m x).tb = s.tb ∧ (s.putMeas m x).now = s.now ∧ (s.putMeas m x).biu = s.biu ∧
    (s.putMeas m x).st = s.st ∧ (s.putMeas m x).sq = s.sq ∧ (s.putMeas m x).ws = s.ws ∧ (s.putMeas m x).bs = s.bs ∧
    (s.putMeas m x).rs = s.rs ∧ (s.putMeas m x).pr = s.pr ∧ (s.putMeas m x).ports = s.ports ∧
    (s.putMeas m x).notices = s.notices ∧ (s.putMeas m x).pins = s.pins ∧ (s.putMeas m x).out = s.out ∧
    (s.putMeas m x).pending = s.pending := by
  simp [State.putMeas]

@[simp] theorem State.setTb_keeps (s : State) (tb : TimeBase) :
    (s.setTb tb).now = s.now ∧ (s.setTb tb).biu = s.biu ∧ (s.setTb tb).st = s.st ∧ (s.setTb tb).sq = s.sq ∧
    (s.setTb tb).ws = s.ws ∧ (s.setTb tb).bs = s.bs ∧ (s.setTb tb).mu = s.mu ∧ (s.setTb tb).rs = s.rs ∧
    (s.setTb tb).pr = s.pr ∧ (s.setTb tb).ports = s.ports ∧ (s.setTb tb).notices = s.notices ∧
    (s.setTb tb).pins = s.pins ∧ (s.setTb tb).out = s.out ∧ (s.setTb tb).pending = s.pending := by
  simp [State.setTb]

@[simp] theorem State.setPr_keeps (s : State) (pr : Ring) :
    (s.setPr pr).tb = s.tb ∧ (s.setPr pr).now = s.now ∧ (s.setPr pr).biu = s.biu ∧ (s.setPr pr).st = s.st ∧
    (s.setPr pr).sq = s.sq ∧ (s.setPr pr).ws = s.ws ∧ (s.setPr pr).bs = s.bs ∧ (s.setPr pr).mu = s.mu ∧
    (s.setPr pr).rs = s.rs ∧ (s.setPr pr).ports = s.ports ∧ (s.setPr pr).notices = s.notices ∧
    (s.setPr pr).pins = s.pins ∧ (s.setPr pr).out = s.out ∧ (s.setPr pr).pending = s.pending := by
  simp [State.setPr]

@[simp] theorem State.setRs_keeps (s : State) (rs : Store) :
    (s.setRs rs).tb = s.tb ∧ (s.setRs rs).now = s.now ∧ (s.setRs rs).biu = s.biu ∧ (s.setRs rs).st = s.st ∧
    (s.setRs rs).sq = s.sq ∧ (s.setRs rs).ws = s.ws ∧ (s.setRs rs).bs = s.bs ∧ (s.setRs rs).mu = s.mu ∧
    (s.setRs rs).pr = s.pr ∧ (s.setRs rs).ports = s.ports ∧ (s.setRs rs).notices = s.notices ∧
    (s.setRs rs).pins = s.pins ∧ (s.setRs rs).out = s.out ∧ (s.setRs rs).pending = s.pending := by
  simp [State.setRs]

@[simp] theorem State.setPort_keeps (s : State) (p : Port) (x : Transport) :
    (s.setPort p x).tb = s.tb ∧ (s.setPort p x).now = s.now ∧ (s.setPort p x).biu = s.biu ∧
    (s.setPort p x).st = s.st ∧ (s.setPort p x).sq = s.sq ∧ (s.setPort p x).ws = s.ws ∧ (s.setPort p x).bs = s.bs ∧
    (s.setPort p x).mu = s.mu ∧ (s.setPort p x).rs = s.rs ∧ (s.setPort p x).pr = s.pr ∧
    (s.setPort p x).notices = s.notices ∧ (s.setPort p x).pins = s.pins ∧ (s.setPort p x).out = s.out ∧
    (s.setPort p x).pending = s.pending := by
  simp [State.setPort]

@[simp] theorem State.withEstopN_keeps (s : State) (high : Bool) :
    (s.withEstopN high).tb = s.tb ∧ (s.withEstopN high).now = s.now ∧ (s.withEstopN high).biu = s.biu ∧
    (s.withEstopN high).st = s.st ∧ (s.withEstopN high).sq = s.sq ∧ (s.withEstopN high).ws = s.ws ∧
    (s.withEstopN high).bs = s.bs ∧ (s.withEstopN high).mu = s.mu ∧ (s.withEstopN high).rs = s.rs ∧
    (s.withEstopN high).pr = s.pr ∧ (s.withEstopN high).ports = s.ports ∧ (s.withEstopN high).notices = s.notices ∧
    (s.withEstopN high).out = s.out ∧ (s.withEstopN high).pending = s.pending := by
  simp [State.withEstopN]

@[simp] theorem State.raise_keeps (s : State) (d : Detail) :
    (s.raise d).tb = s.tb ∧ (s.raise d).now = s.now ∧ (s.raise d).biu = s.biu ∧ (s.raise d).st = s.st ∧
    (s.raise d).sq = s.sq ∧ (s.raise d).ws = s.ws ∧ (s.raise d).bs = s.bs ∧ (s.raise d).mu = s.mu ∧
    (s.raise d).rs = s.rs ∧ (s.raise d).pr = s.pr ∧ (s.raise d).ports = s.ports ∧ (s.raise d).pins = s.pins ∧
    (s.raise d).out = s.out ∧ (s.raise d).pending = s.pending := by
  simp [State.raise]

@[simp] theorem State.raiseOn_keeps (s : State) (p : Port) (d : Detail) :
    (s.raiseOn p d).tb = s.tb ∧ (s.raiseOn p d).now = s.now ∧ (s.raiseOn p d).biu = s.biu ∧
    (s.raiseOn p d).st = s.st ∧ (s.raiseOn p d).sq = s.sq ∧ (s.raiseOn p d).ws = s.ws ∧ (s.raiseOn p d).bs = s.bs ∧
    (s.raiseOn p d).mu = s.mu ∧ (s.raiseOn p d).rs = s.rs ∧ (s.raiseOn p d).pr = s.pr ∧
    (s.raiseOn p d).ports = s.ports ∧ (s.raiseOn p d).pins = s.pins ∧ (s.raiseOn p d).out = s.out ∧
    (s.raiseOn p d).pending = s.pending := by
  simp [State.raiseOn]

@[simp] theorem State.raiseRunState_keeps (s : State) :
    (s.raiseRunState).tb = s.tb ∧ (s.raiseRunState).now = s.now ∧ (s.raiseRunState).biu = s.biu ∧
    (s.raiseRunState).st = s.st ∧ (s.raiseRunState).sq = s.sq ∧ (s.raiseRunState).ws = s.ws ∧
    (s.raiseRunState).bs = s.bs ∧ (s.raiseRunState).mu = s.mu ∧ (s.raiseRunState).rs = s.rs ∧
    (s.raiseRunState).pr = s.pr ∧ (s.raiseRunState).ports = s.ports ∧ (s.raiseRunState).pins = s.pins ∧
    (s.raiseRunState).out = s.out ∧ (s.raiseRunState).pending = s.pending := by
  simp [State.raiseRunState, State.raise]

@[simp] theorem State.pushReply_keeps (s : State) (p : Port) (r : Reply) :
    (s.pushReply p r).tb = s.tb ∧ (s.pushReply p r).now = s.now ∧ (s.pushReply p r).biu = s.biu ∧
    (s.pushReply p r).st = s.st ∧ (s.pushReply p r).sq = s.sq ∧ (s.pushReply p r).ws = s.ws ∧
    (s.pushReply p r).bs = s.bs ∧ (s.pushReply p r).mu = s.mu ∧ (s.pushReply p r).rs = s.rs ∧
    (s.pushReply p r).pr = s.pr ∧ (s.pushReply p r).notices = s.notices ∧ (s.pushReply p r).pins = s.pins ∧
    (s.pushReply p r).out = s.out ∧ (s.pushReply p r).pending = s.pending := by
  simp [State.pushReply, State.setPort]

@[simp] theorem State.loseFrame_keeps (s : State) (p : Port) :
    (s.loseFrame p).tb = s.tb ∧ (s.loseFrame p).now = s.now ∧ (s.loseFrame p).biu = s.biu ∧
    (s.loseFrame p).st = s.st ∧ (s.loseFrame p).sq = s.sq ∧ (s.loseFrame p).ws = s.ws ∧ (s.loseFrame p).bs = s.bs ∧
    (s.loseFrame p).mu = s.mu ∧ (s.loseFrame p).rs = s.rs ∧ (s.loseFrame p).pr = s.pr ∧
    (s.loseFrame p).notices = s.notices ∧ (s.loseFrame p).pins = s.pins ∧ (s.loseFrame p).out = s.out ∧
    (s.loseFrame p).pending = s.pending := by
  simp [State.loseFrame, State.setPort]

@[simp] theorem State.driveOutputs_keeps (s : State) :
    (s.driveOutputs).tb = s.tb ∧ (s.driveOutputs).now = s.now ∧ (s.driveOutputs).st = s.st ∧
    (s.driveOutputs).sq = s.sq ∧ (s.driveOutputs).ws = s.ws ∧ (s.driveOutputs).bs = s.bs ∧
    (s.driveOutputs).mu = s.mu ∧ (s.driveOutputs).rs = s.rs ∧ (s.driveOutputs).pr = s.pr ∧
    (s.driveOutputs).ports = s.ports ∧ (s.driveOutputs).notices = s.notices ∧ (s.driveOutputs).pins = s.pins ∧
    (s.driveOutputs).out = s.out ∧ (s.driveOutputs).pending = s.pending := by
  simp [State.driveOutputs]

@[simp] theorem State.reportReady_keeps (s : State) (n : SeqNo) :
    (s.reportReady n).tb = s.tb ∧ (s.reportReady n).now = s.now ∧ (s.reportReady n).biu = s.biu ∧
    (s.reportReady n).st = s.st ∧ (s.reportReady n).sq = s.sq ∧ (s.reportReady n).ws = s.ws ∧
    (s.reportReady n).bs = s.bs ∧ (s.reportReady n).mu = s.mu ∧ (s.reportReady n).rs = s.rs ∧
    (s.reportReady n).pr = s.pr ∧ (s.reportReady n).ports = s.ports ∧ (s.reportReady n).pins = s.pins ∧
    (s.reportReady n).out = s.out ∧ (s.reportReady n).pending = s.pending := by
  simp [State.reportReady]

@[simp] theorem State.settleSpace_keeps (s : State) :
    (s.settleSpace).tb = s.tb ∧ (s.settleSpace).now = s.now ∧ (s.settleSpace).biu = s.biu ∧
    (s.settleSpace).st = s.st ∧ (s.settleSpace).sq = s.sq ∧ (s.settleSpace).ws = s.ws ∧ (s.settleSpace).bs = s.bs ∧
    (s.settleSpace).mu = s.mu ∧ (s.settleSpace).pr = s.pr ∧ (s.settleSpace).ports = s.ports ∧
    (s.settleSpace).pins = s.pins ∧ (s.settleSpace).out = s.out ∧ (s.settleSpace).pending = s.pending := by
  simp [State.settleSpace]

@[simp] theorem State.releaseReserve_keeps (s : State) :
    (s.releaseReserve).tb = s.tb ∧ (s.releaseReserve).now = s.now ∧ (s.releaseReserve).biu = s.biu ∧
    (s.releaseReserve).st = s.st ∧ (s.releaseReserve).sq = s.sq ∧ (s.releaseReserve).ws = s.ws ∧
    (s.releaseReserve).bs = s.bs ∧ (s.releaseReserve).mu = s.mu ∧ (s.releaseReserve).pr = s.pr ∧
    (s.releaseReserve).ports = s.ports ∧ (s.releaseReserve).pins = s.pins ∧ (s.releaseReserve).out = s.out ∧
    (s.releaseReserve).pending = s.pending := by
  simp [State.releaseReserve, State.settleSpace]

@[simp] theorem State.endImpairment_keeps (s : State) (k : ImpKind) (x : Option Nat) (t : Tick) :
    (s.endImpairment k x t).tb = s.tb ∧ (s.endImpairment k x t).now = s.now ∧ (s.endImpairment k x t).biu = s.biu ∧
    (s.endImpairment k x t).st = s.st ∧ (s.endImpairment k x t).ws = s.ws ∧ (s.endImpairment k x t).bs = s.bs ∧
    (s.endImpairment k x t).mu = s.mu ∧ (s.endImpairment k x t).rs = s.rs ∧ (s.endImpairment k x t).pr = s.pr ∧
    (s.endImpairment k x t).ports = s.ports ∧ (s.endImpairment k x t).notices = s.notices ∧
    (s.endImpairment k x t).pins = s.pins ∧ (s.endImpairment k x t).out = s.out ∧
    (s.endImpairment k x t).pending = s.pending := by
  simp [State.endImpairment]

@[simp] theorem State.followSetpoints_keeps (s : State) (t : Tick) :
    (s.followSetpoints t).tb = s.tb ∧ (s.followSetpoints t).now = s.now ∧ (s.followSetpoints t).biu = s.biu ∧
    (s.followSetpoints t).st = s.st ∧ (s.followSetpoints t).sq = s.sq ∧ (s.followSetpoints t).ws = s.ws ∧
    (s.followSetpoints t).bs = s.bs ∧ (s.followSetpoints t).rs = s.rs ∧ (s.followSetpoints t).pr = s.pr ∧
    (s.followSetpoints t).ports = s.ports ∧ (s.followSetpoints t).notices = s.notices ∧
    (s.followSetpoints t).pins = s.pins ∧ (s.followSetpoints t).out = s.out ∧
    (s.followSetpoints t).pending = s.pending := by
  simp [State.followSetpoints]

@[simp] theorem State.forward_keeps (s : State) (m : Message) :
    (s.forward m).tb = s.tb ∧ (s.forward m).now = s.now ∧ (s.forward m).biu = s.biu ∧ (s.forward m).st = s.st ∧
    (s.forward m).sq = s.sq ∧ (s.forward m).ws = s.ws ∧ (s.forward m).bs = s.bs ∧ (s.forward m).mu = s.mu ∧
    (s.forward m).rs = s.rs ∧ (s.forward m).pr = s.pr ∧ (s.forward m).ports = s.ports ∧
    (s.forward m).notices = s.notices ∧ (s.forward m).pins = s.pins ∧ (s.forward m).pending = s.pending := by
  simp [State.forward]

@[simp] theorem State.withdrawReady_keeps (s : State) (p : Port) :
    (s.withdrawReady p).tb = s.tb ∧ (s.withdrawReady p).now = s.now ∧ (s.withdrawReady p).biu = s.biu ∧
    (s.withdrawReady p).st = s.st ∧ (s.withdrawReady p).sq = s.sq ∧ (s.withdrawReady p).ws = s.ws ∧
    (s.withdrawReady p).bs = s.bs ∧ (s.withdrawReady p).mu = s.mu ∧ (s.withdrawReady p).rs = s.rs ∧
    (s.withdrawReady p).pr = s.pr ∧ (s.withdrawReady p).ports = s.ports ∧ (s.withdrawReady p).pins = s.pins ∧
    (s.withdrawReady p).out = s.out ∧ (s.withdrawReady p).pending = s.pending := by
  simp [State.withdrawReady]

@[simp] theorem State.microsecond_keeps (s : State) (c k : Nat) :
    (s.microsecond c k).biu = { s.biu with shown := s.inputsPicture } ∧ (s.microsecond c k).st = s.st ∧ (s.microsecond c k).sq = s.sq ∧
    (s.microsecond c k).ws = s.ws ∧ (s.microsecond c k).bs = s.bs ∧ (s.microsecond c k).mu = s.mu ∧
    (s.microsecond c k).rs = s.rs ∧ (s.microsecond c k).pr = s.pr ∧ (s.microsecond c k).ports = s.ports ∧
    (s.microsecond c k).notices = s.notices ∧ (s.microsecond c k).pins = s.pins ∧ (s.microsecond c k).out = s.out ∧
    (s.microsecond c k).pending = s.pending := by
  simp [State.microsecond]

@[simp] theorem State.showChannels_keeps (s : State) :
    (s.showChannels).tb = s.tb ∧ (s.showChannels).now = s.now ∧ (s.showChannels).biu = s.biu ∧
    (s.showChannels).st = s.st ∧ (s.showChannels).sq = s.sq ∧ (s.showChannels).bs = s.bs ∧
    (s.showChannels).mu = s.mu ∧ (s.showChannels).rs = s.rs ∧ (s.showChannels).pr = s.pr ∧
    (s.showChannels).ports = s.ports ∧ (s.showChannels).notices = s.notices ∧ (s.showChannels).pins = s.pins ∧
    (s.showChannels).out = s.out ∧ (s.showChannels).pending = s.pending := by
  simp [State.showChannels]

@[simp] theorem State.clockOut_keeps (s : State) (p : Port) (x : Transfer) :
    (s.clockOut p x).tb = s.tb ∧ (s.clockOut p x).now = s.now ∧ (s.clockOut p x).biu = s.biu ∧
    (s.clockOut p x).st = s.st ∧ (s.clockOut p x).sq = s.sq ∧ (s.clockOut p x).ws = s.ws ∧
    (s.clockOut p x).bs = s.bs ∧ (s.clockOut p x).mu = s.mu ∧ (s.clockOut p x).rs = s.rs ∧
    (s.clockOut p x).pr = s.pr ∧ (s.clockOut p x).ports = s.ports ∧ (s.clockOut p x).notices = s.notices ∧
    (s.clockOut p x).pins = s.pins ∧ (s.clockOut p x).pending = s.pending := by
  simp [State.clockOut]

@[simp] theorem State.cutTransactions_keeps (s : State) :
    (s.cutTransactions).tb = s.tb ∧ (s.cutTransactions).now = s.now ∧ (s.cutTransactions).biu = s.biu ∧
    (s.cutTransactions).st = s.st ∧ (s.cutTransactions).sq = s.sq ∧ (s.cutTransactions).ws = s.ws ∧
    (s.cutTransactions).bs = s.bs ∧ (s.cutTransactions).mu = s.mu ∧ (s.cutTransactions).rs = s.rs ∧
    (s.cutTransactions).pr = s.pr ∧ (s.cutTransactions).ports = s.ports ∧ (s.cutTransactions).notices = s.notices ∧
    (s.cutTransactions).pins = s.pins ∧ (s.cutTransactions).pending = s.pending := by
  simp [State.cutTransactions]

/-! ### What the updated part is -/

@[simp] theorem State.showChannels_ws (s : State) : s.showChannels.ws = { s.ws with shown := s.channelsPicture } := rfl

@[simp] theorem Wires.put_get (w : Wires) (p q : Port) (d : DataOutput) :
    (w.put p d).get q = if p = q then d else w.get q := by
  cases p <;> cases q <;> rfl

@[simp] theorem Wires.put_keeps (w : Wires) (p : Port) (d : DataOutput) :
    (w.put p d).ring = w.ring ∧ (w.put p d).link = w.link := by
  cases p <;> simp [Wires.put]

@[simp] theorem State.microsecond_tb (s : State) (c k : Nat) :
    (s.microsecond c k).tb = { s.tb with et := Tick.plus s.tb.et c, corr := k } := rfl

@[simp] theorem State.microsecond_now (s : State) (c k : Nat) : (s.microsecond c k).now = s.now.next c := rfl

@[simp] theorem State.putSlot_st (s : State) (k : Fin 64) (r : Option StateRecord) :
    (s.putSlot k r).st.slots = upd s.st.slots k r := rfl

@[simp] theorem State.setTb_tb (s : State) (tb : TimeBase) : (s.setTb tb).tb = tb := rfl

@[simp] theorem State.setPr_pr (s : State) (pr : Ring) : (s.setPr pr).pr = pr := rfl

@[simp] theorem State.setRs_rs (s : State) (rs : Store) : (s.setRs rs).rs = rs := rfl

@[simp] theorem State.withEstopN_pins (s : State) (high : Bool) :
    (s.withEstopN high).pins = { s.pins with estopN := high } := rfl

@[simp] theorem State.putInput_inputs (s : State) (i : Fin 16) (x : Input) :
    (s.putInput i x).biu = { s.biu with inputs := upd s.biu.inputs i x } := rfl

@[simp] theorem State.putChannel_ws (s : State) (c : Fin 10) (x : Channel) :
    (s.putChannel c x).ws = { s.ws with channels := upd s.ws.channels c x } := rfl

@[simp] theorem State.putBreaker_bs (s : State) (k : Fin 4) (b : Breaker) :
    (s.putBreaker k b).bs = { breakers := upd s.bs.breakers k b } := rfl

@[simp] theorem State.putMeas_mu (s : State) (m : Fin 32) (x : Measurement) :
    (s.putMeas m x).mu = { s.mu with meas := upd s.mu.meas m x } := rfl

@[simp] theorem State.raise_notices (s : State) (d : Detail) : (s.raise d).notices = s.notices.raise d := rfl

@[simp] theorem State.driveOutputs_driven (s : State) : s.driveOutputs.biu.driven = s.outputLevels := rfl

@[simp] theorem State.setPort_port (s : State) (p q : Port) (x : Transport) :
    (s.setPort p x).port q = if p = q then x else s.port q := by
  cases p <;> cases q <;> rfl

@[simp] theorem State.pushReply_queue (s : State) (p : Port) (r : Reply) :
    ((s.pushReply p r).port p).queue = (s.port p).queue ++ [r] := by
  cases p <;> rfl

/-! ### One place of a vector -/

@[simp] theorem upd_same {α : Type} {n : Nat} (v : Vector α n) (i : Fin n) (x : α) : (upd v i x)[i.val] = x := by
  simp [upd]

theorem upd_other {α : Type} {n : Nat} (v : Vector α n) (i j : Fin n) (x : α) (h : i ≠ j) :
    (upd v i x)[j.val] = v[j.val] := by
  have : i.val ≠ j.val := fun e => h (Fin.ext e)
  simp [upd, Vector.getElem_set_ne, this]

/-- Place `j` after place `i` was replaced. -/
theorem upd_get {α : Type} {n : Nat} (v : Vector α n) (i j : Fin n) (x : α) :
    (upd v i x)[j.val] = if i = j then x else v[j.val] := by
  by_cases h : i = j
  · subst h; simp
  · simp [upd_other v i j x h, h]

end Sys2Proof.Machine
end

