-- ==== Sys2Proof/Laws/Ops.lean ====
section
/-! SUPPORT. What the shared operations keep and do: commits and impairments (chapters 4 and 8), measurements (chapter 7), ring
messages and exits (chapters 4 and 9). -/

namespace Sys2Proof.Machine

/-- What every step of a fold keeps, the fold keeps. -/
theorem foldl_keeps {σ α β : Type} (g : σ → β) (f : σ → α → σ) (h : ∀ s a, g (f s a) = g s) (l : List α)
    (s : σ) : g (l.foldl f s) = g s := by
  induction l generalizing s with
  | nil => rfl
  | cons a l ih => exact (ih (f s a)).trans (h s a)

/-- What every step of a fold keeps true, the fold keeps true. -/
theorem foldl_invariant {α : Type} (P : State → Prop) (f : State → α → State) (h : ∀ s a, P s → P (f s a)) (l : List α)
    (s : State) (hs : P s) : P (l.foldl f s) := by
  induction l generalizing s with
  | nil => exact hs
  | cons a l ih => exact ih (f s a) (h s a hs)

/-! ### Commits (R144, R148, R149) -/

@[simp] theorem State.commit_keeps (s : State) (b : RecordBody) :
    (s.commit b).tb = s.tb ∧ (s.commit b).now = s.now ∧ (s.commit b).biu = s.biu ∧ (s.commit b).st = s.st ∧
    (s.commit b).sq = s.sq ∧ (s.commit b).ws = s.ws ∧ (s.commit b).bs = s.bs ∧ (s.commit b).mu = s.mu ∧
    (s.commit b).pr = s.pr ∧ (s.commit b).ports = s.ports ∧ (s.commit b).pins = s.pins ∧ (s.commit b).out = s.out ∧
    (s.commit b).pending = s.pending := by
  unfold State.commit
  dsimp only
  split <;> simp

/-- Records that the store gives up are the oldest ones, each passed by every subscribed reader (R148). -/
theorem discardUntil_suffix (rs : Store) (room spare : Nat) (l : List Record) :
    ∃ gone, l = gone ++ (discardUntil rs room spare l).1 ∧ ∀ r ∈ gone, rs.free r = true := by
  induction l generalizing spare with
  | nil => exact ⟨[], rfl, by simp⟩
  | cons r rest ih =>
    unfold discardUntil
    split
    · exact ⟨[], rfl, by simp⟩
    · split
      · rename_i hfree
        obtain ⟨gone, h, hall⟩ := ih (spare + r.length)
        refine ⟨r :: gone, by rw [List.cons_append, ← h], ?_⟩
        intro x hx
        rcases List.mem_cons.mp hx with rfl | hx
        · exact hfree
        · exact hall x hx
      · exact ⟨[], rfl, by simp⟩

/-- What a commit can do in the store: the record joins at the newest end with the next sequence number, after some of the
oldest records left; or it is dropped, and only the dropped counts change. -/
theorem Store.commit_cases (rs : Store) (run : Nat) (b : RecordBody) :
    (∃ gone kept, rs.records = gone ++ kept ∧ (rs.commit run b).2 = true ∧
        (rs.commit run b).1.records = kept ++ [{ seq := rs.nextSeq, run := run, body := b }] ∧
        (rs.commit run b).1.nextSeq = rs.nextSeq + 1) ∨
      ((rs.commit run b).2 = false ∧ b.essential = false ∧ (rs.commit run b).1.records = rs.records ∧
        (rs.commit run b).1.nextSeq = rs.nextSeq ∧ (rs.commit run b).1.totalDropped = rs.totalDropped + 1) := by
  unfold Store.commit
  split
  · exact .inl ⟨[], rs.records, rfl, rfl, rfl, rfl⟩
  · rename_i hess
    dsimp only
    split
    · obtain ⟨gone, h, _⟩ := discardUntil_suffix rs b.length rs.spare rs.records
      exact .inl ⟨gone, _, h, rfl, rfl, rfl⟩
    · exact .inr ⟨rfl, by simpa using hess, rfl, rfl, rfl⟩

/-- The records and the next sequence number of a commit are those of the store's own commit. -/
theorem State.commit_rs (s : State) (b : RecordBody) :
    (s.commit b).rs.records = (s.rs.commit s.runNumber b).1.records ∧
      (s.commit b).rs.nextSeq = (s.rs.commit s.runNumber b).1.nextSeq ∧
      (s.commit b).rs.reserve = (s.rs.commit s.runNumber b).1.reserve := by
  unfold State.commit
  dsimp only
  split <;> simp [State.settleSpace, State.reportReady, State.raise]

/-! ### Impairments (R71) -/

@[simp] theorem State.openImpairment_keeps (s : State) (k : ImpKind) (x : Option Nat) (t : Tick) :
    (s.openImpairment k x t).tb = s.tb ∧ (s.openImpairment k x t).now = s.now ∧
    (s.openImpairment k x t).biu = s.biu ∧ (s.openImpairment k x t).st = s.st ∧ (s.openImpairment k x t).ws = s.ws ∧
    (s.openImpairment k x t).bs = s.bs ∧ (s.openImpairment k x t).mu = s.mu ∧ (s.openImpairment k x t).pr = s.pr ∧
    (s.openImpairment k x t).ports = s.ports ∧ (s.openImpairment k x t).pins = s.pins ∧
    (s.openImpairment k x t).out = s.out ∧ (s.openImpairment k x t).pending = s.pending := by
  unfold State.openImpairment
  (repeat' split) <;> simp

/-- Opening an impairment touches the list and the overflow mark of the run record, and nothing else of it (R71). -/
theorem State.openImpairment_sq (s : State) (k : ImpKind) (x : Option Nat) (t : Tick) :
    ∃ l o, (s.openImpairment k x t).sq = { s.sq with impairments := l, overflow := o } := by
  unfold State.openImpairment
  (repeat' split) <;> exact ⟨_, _, rfl⟩

/-- Outside RUNNING a condition opens nothing (R71). -/
theorem State.openImpairment_stopped (s : State) (k : ImpKind) (x : Option Nat) (t : Tick) (h : s.running = false) :
    s.openImpairment k x t = s := by
  simp [State.openImpairment, h]

/-! ### Measurements (R126 to R137) -/

@[simp] theorem State.finish_keeps (s : State) (m : Fin 32) (d : MeasDef) (r : MeasResult) :
    (s.finish m d r).tb = s.tb ∧ (s.finish m d r).now = s.now ∧ (s.finish m d r).biu = s.biu ∧
    (s.finish m d r).st = s.st ∧ (s.finish m d r).sq = s.sq ∧ (s.finish m d r).ws = s.ws ∧
    (s.finish m d r).bs = s.bs ∧ (s.finish m d r).pr = s.pr ∧ (s.finish m d r).ports = s.ports ∧
    (s.finish m d r).pins = s.pins ∧ (s.finish m d r).out = s.out ∧ (s.finish m d r).pending = s.pending := by
  unfold State.finish
  dsimp only
  split <;> simp

@[simp] theorem State.judge_keeps (s : State) (m : Fin 32) (d : MeasDef) (o : MeasOutcome) (v : Option Int) (x : Option Tick) (p : Bool) (lo hi : Tick) :
    (s.judge m d o v x p lo hi).tb = s.tb ∧ (s.judge m d o v x p lo hi).now = s.now ∧
    (s.judge m d o v x p lo hi).biu = s.biu ∧ (s.judge m d o v x p lo hi).st = s.st ∧
    (s.judge m d o v x p lo hi).sq = s.sq ∧ (s.judge m d o v x p lo hi).ws = s.ws ∧
    (s.judge m d o v x p lo hi).bs = s.bs ∧ (s.judge m d o v x p lo hi).pr = s.pr ∧
    (s.judge m d o v x p lo hi).ports = s.ports ∧ (s.judge m d o v x p lo hi).pins = s.pins ∧
    (s.judge m d o v x p lo hi).out = s.out ∧ (s.judge m d o v x p lo hi).pending = s.pending := by
  unfold State.judge
  split <;> simp

@[simp] theorem State.stopMeas_keeps (s : State) (m : Fin 32) (d : MeasDef) (a t : Tick) (p : Bool) :
    (s.stopMeas m d a t p).tb = s.tb ∧ (s.stopMeas m d a t p).now = s.now ∧ (s.stopMeas m d a t p).biu = s.biu ∧
    (s.stopMeas m d a t p).st = s.st ∧ (s.stopMeas m d a t p).sq = s.sq ∧ (s.stopMeas m d a t p).ws = s.ws ∧
    (s.stopMeas m d a t p).bs = s.bs ∧ (s.stopMeas m d a t p).pr = s.pr ∧ (s.stopMeas m d a t p).ports = s.ports ∧
    (s.stopMeas m d a t p).pins = s.pins ∧ (s.stopMeas m d a t p).out = s.out ∧
    (s.stopMeas m d a t p).pending = s.pending := by
  unfold State.stopMeas
  dsimp only
  (repeat' split) <;> simp

@[simp] theorem State.takeEvent_keeps (s : State) (e : MuEvent) (t : Tick) (p : Bool) (m : Fin 32) :
    (s.takeEvent e t p m).tb = s.tb ∧ (s.takeEvent e t p m).now = s.now ∧ (s.takeEvent e t p m).biu = s.biu ∧
    (s.takeEvent e t p m).st = s.st ∧ (s.takeEvent e t p m).sq = s.sq ∧ (s.takeEvent e t p m).ws = s.ws ∧
    (s.takeEvent e t p m).bs = s.bs ∧ (s.takeEvent e t p m).pr = s.pr ∧ (s.takeEvent e t p m).ports = s.ports ∧
    (s.takeEvent e t p m).pins = s.pins ∧ (s.takeEvent e t p m).out = s.out ∧
    (s.takeEvent e t p m).pending = s.pending := by
  unfold State.takeEvent
  dsimp only
  (repeat' split) <;> simp

@[simp] theorem State.takeEvents_keeps (s : State) (w : WaitingEvent) :
    (s.takeEvents w).tb = s.tb ∧ (s.takeEvents w).now = s.now ∧ (s.takeEvents w).biu = s.biu ∧
    (s.takeEvents w).st = s.st ∧ (s.takeEvents w).sq = s.sq ∧ (s.takeEvents w).ws = s.ws ∧
    (s.takeEvents w).bs = s.bs ∧ (s.takeEvents w).pr = s.pr ∧ (s.takeEvents w).ports = s.ports ∧
    (s.takeEvents w).pins = s.pins ∧ (s.takeEvents w).out = s.out ∧ (s.takeEvents w).pending = s.pending := by
  unfold State.takeEvents
  refine ⟨?_, ?_, ?_, ?_, ?_, ?_, ?_, ?_, ?_, ?_, ?_, ?_⟩ <;> exact foldl_keeps _ _ (fun s m => by simp) _ s

@[simp] theorem State.muEvent_keeps (s : State) (e : MuEvent) (t : Tick) (p : Bool) :
    (s.muEvent e t p).tb = s.tb ∧ (s.muEvent e t p).now = s.now ∧ (s.muEvent e t p).biu = s.biu ∧
    (s.muEvent e t p).st = s.st ∧ (s.muEvent e t p).sq = s.sq ∧ (s.muEvent e t p).ws = s.ws ∧
    (s.muEvent e t p).bs = s.bs ∧ (s.muEvent e t p).pr = s.pr ∧ (s.muEvent e t p).ports = s.ports ∧
    (s.muEvent e t p).pins = s.pins ∧ (s.muEvent e t p).out = s.out ∧ (s.muEvent e t p).pending = s.pending := by
  unfold State.muEvent
  dsimp only
  (repeat' split) <;> simp

/-- What MU does with an event: nothing outside RUNNING; else the event waits, or each measurement takes it (R124, R130; log 72). -/
theorem State.muEvent_cases (s : State) (e : MuEvent) (t : Tick) (p : Bool) :
    (s.running = false ∧ s.muEvent e t p = s) ∨
      (s.running = true ∧ s.eventWaits ⟨e, t, p⟩ = true ∧
        s.muEvent e t p = { s with mu := { s.mu with waiting := s.mu.waiting ++ [⟨e, t, p⟩] } }) ∨
      (s.running = true ∧ s.eventWaits ⟨e, t, p⟩ = false ∧ s.muEvent e t p = s.takeEvents ⟨e, t, p⟩) := by
  unfold State.muEvent
  cases s.running <;> cases h : s.eventWaits ⟨e, t, p⟩ <;> simp [h]

/-- With no boundary still to be given in this microsecond no event waits (R130; log 72). -/
theorem State.eventWaits_none (s : State) (w : WaitingEvent) (h : s.boundaryNow = none) : s.eventWaits w = false := by
  simp [State.eventWaits, h]

@[simp] theorem State.takeAll_keeps (s : State) (l : List WaitingEvent) :
    (l.foldl State.takeEvents s).tb = s.tb ∧ (l.foldl State.takeEvents s).now = s.now ∧ (l.foldl State.takeEvents s).biu = s.biu ∧
    (l.foldl State.takeEvents s).st = s.st ∧ (l.foldl State.takeEvents s).sq = s.sq ∧ (l.foldl State.takeEvents s).ws = s.ws ∧
    (l.foldl State.takeEvents s).bs = s.bs ∧ (l.foldl State.takeEvents s).pr = s.pr ∧ (l.foldl State.takeEvents s).ports = s.ports ∧
    (l.foldl State.takeEvents s).pins = s.pins ∧ (l.foldl State.takeEvents s).out = s.out ∧ (l.foldl State.takeEvents s).pending = s.pending := by
  refine ⟨?_, ?_, ?_, ?_, ?_, ?_, ?_, ?_, ?_, ?_, ?_, ?_⟩ <;> exact foldl_keeps _ _ (fun s w => by simp) _ s

@[simp] theorem State.settleEvents_keeps (s : State) :
    (s.settleEvents).tb = s.tb ∧ (s.settleEvents).now = s.now ∧ (s.settleEvents).biu = s.biu ∧
    (s.settleEvents).st = s.st ∧ (s.settleEvents).sq = s.sq ∧ (s.settleEvents).ws = s.ws ∧
    (s.settleEvents).bs = s.bs ∧ (s.settleEvents).pr = s.pr ∧ (s.settleEvents).ports = s.ports ∧
    (s.settleEvents).pins = s.pins ∧ (s.settleEvents).out = s.out ∧ (s.settleEvents).pending = s.pending := by
  unfold State.settleEvents
  split <;> simp

/-- With no event waiting there is nothing to settle. -/
@[simp] theorem State.settleEvents_none (s : State) (h : s.mu.waiting = []) : s.settleEvents = s := by
  unfold State.settleEvents
  split
  · rw [h]
    obtain ⟨_, _, _, _, _, _, _, mu, _⟩ := s
    cases mu; simp_all
  · rfl

@[simp] theorem State.resolve_keeps (s : State) (r : CloseReason) (t : Tick) (m : Fin 32) :
    (s.resolve r t m).tb = s.tb ∧ (s.resolve r t m).now = s.now ∧ (s.resolve r t m).biu = s.biu ∧
    (s.resolve r t m).st = s.st ∧ (s.resolve r t m).sq = s.sq ∧ (s.resolve r t m).ws = s.ws ∧
    (s.resolve r t m).bs = s.bs ∧ (s.resolve r t m).pr = s.pr ∧ (s.resolve r t m).ports = s.ports ∧
    (s.resolve r t m).pins = s.pins ∧ (s.resolve r t m).out = s.out ∧ (s.resolve r t m).pending = s.pending := by
  unfold State.resolve
  dsimp only
  (repeat' split) <;> simp

@[simp] theorem State.resolveAll_keeps (s : State) (r : CloseReason) (t : Tick) :
    (s.resolveAll r t).tb = s.tb ∧ (s.resolveAll r t).now = s.now ∧ (s.resolveAll r t).biu = s.biu ∧
    (s.resolveAll r t).st = s.st ∧ (s.resolveAll r t).sq = s.sq ∧ (s.resolveAll r t).ws = s.ws ∧
    (s.resolveAll r t).bs = s.bs ∧ (s.resolveAll r t).pr = s.pr ∧ (s.resolveAll r t).ports = s.ports ∧
    (s.resolveAll r t).pins = s.pins ∧ (s.resolveAll r t).out = s.out ∧ (s.resolveAll r t).pending = s.pending := by
  unfold State.resolveAll
  refine ⟨?_, ?_, ?_, ?_, ?_, ?_, ?_, ?_, ?_, ?_, ?_, ?_⟩ <;> exact foldl_keeps _ _ (fun s m => by simp) _ s

/-! ### The ring and exits (R61, R64, R159, R166) -/

@[simp] theorem State.send_keeps (s : State) (b : MsgBody) :
    (s.send b).tb = s.tb ∧ (s.send b).now = s.now ∧ (s.send b).biu = s.biu ∧ (s.send b).st = s.st ∧
    (s.send b).sq = s.sq ∧ (s.send b).ws = s.ws ∧ (s.send b).bs = s.bs ∧ (s.send b).mu = s.mu ∧
    (s.send b).rs = s.rs ∧ (s.send b).pr = s.pr ∧ (s.send b).ports = s.ports ∧ (s.send b).notices = s.notices ∧
    (s.send b).pins = s.pins ∧ (s.send b).pending = s.pending := by
  unfold State.send
  split <;> simp

@[simp] theorem State.peerRecord_keeps (s : State) (i : PeerInfo) :
    (s.peerRecord i).tb = s.tb ∧ (s.peerRecord i).now = s.now ∧ (s.peerRecord i).biu = s.biu ∧
    (s.peerRecord i).st = s.st ∧ (s.peerRecord i).sq = s.sq ∧ (s.peerRecord i).ws = s.ws ∧
    (s.peerRecord i).bs = s.bs ∧ (s.peerRecord i).mu = s.mu ∧ (s.peerRecord i).pr = s.pr ∧
    (s.peerRecord i).ports = s.ports ∧ (s.peerRecord i).pins = s.pins ∧ (s.peerRecord i).out = s.out ∧
    (s.peerRecord i).pending = s.pending := by
  simp [State.peerRecord]

@[simp] theorem State.sendShared_keeps (s : State) (e : SharedEvent) (d : Nat) :
    (s.sendShared e d).tb = s.tb ∧ (s.sendShared e d).now = s.now ∧ (s.sendShared e d).biu = s.biu ∧
    (s.sendShared e d).st = s.st ∧ (s.sendShared e d).sq = s.sq ∧ (s.sendShared e d).ws = s.ws ∧
    (s.sendShared e d).bs = s.bs ∧ (s.sendShared e d).mu = s.mu ∧ (s.sendShared e d).rs = s.rs ∧
    (s.sendShared e d).ports = s.ports ∧ (s.sendShared e d).notices = s.notices ∧ (s.sendShared e d).pins = s.pins ∧
    (s.sendShared e d).pending = s.pending := by
  unfold State.sendShared
  split <;> simp

@[simp] theorem State.commitIfAccepted_keeps (s : State) :
    (s.commitIfAccepted).tb = s.tb ∧ (s.commitIfAccepted).now = s.now ∧ (s.commitIfAccepted).biu = s.biu ∧
    (s.commitIfAccepted).st = s.st ∧ (s.commitIfAccepted).sq = s.sq ∧ (s.commitIfAccepted).ws = s.ws ∧
    (s.commitIfAccepted).bs = s.bs ∧ (s.commitIfAccepted).mu = s.mu ∧ (s.commitIfAccepted).rs = s.rs ∧
    (s.commitIfAccepted).ports = s.ports ∧ (s.commitIfAccepted).notices = s.notices ∧
    (s.commitIfAccepted).pins = s.pins ∧ (s.commitIfAccepted).pending = s.pending := by
  unfold State.commitIfAccepted
  (repeat' split) <;> simp

@[simp] theorem State.propose_keeps (s : State) (x : Option (Fin 64)) (m : PeerMode) :
    (s.propose x m).tb = s.tb ∧ (s.propose x m).now = s.now ∧ (s.propose x m).biu = s.biu ∧
    (s.propose x m).st = s.st ∧ (s.propose x m).sq = s.sq ∧ (s.propose x m).ws = s.ws ∧ (s.propose x m).bs = s.bs ∧
    (s.propose x m).mu = s.mu ∧ (s.propose x m).ports = s.ports ∧ (s.propose x m).pins = s.pins ∧
    (s.propose x m).pending = s.pending := by
  simp [State.propose]

@[simp] theorem State.meetExit_keeps (s : State) (c : ExitCause) (x : Fin 64) (m : PeerMode) (b : Tick) :
    (s.meetExit c x m b).1.tb = s.tb ∧ (s.meetExit c x m b).1.now = s.now ∧ (s.meetExit c x m b).1.biu = s.biu ∧
    (s.meetExit c x m b).1.st = s.st ∧ (s.meetExit c x m b).1.ws = s.ws ∧ (s.meetExit c x m b).1.bs = s.bs ∧
    (s.meetExit c x m b).1.mu = s.mu ∧ (s.meetExit c x m b).1.ports = s.ports ∧ (s.meetExit c x m b).1.pins = s.pins ∧
    (s.meetExit c x m b).1.pending = s.pending := by
  unfold State.meetExit
  (repeat' split) <;> simp

@[simp] theorem State.meetTriggers_keeps (s : State) (f : Cond → Bool) (b : Tick) :
    (s.meetTriggers f b).tb = s.tb ∧ (s.meetTriggers f b).now = s.now ∧ (s.meetTriggers f b).biu = s.biu ∧
    (s.meetTriggers f b).st = s.st ∧ (s.meetTriggers f b).ws = s.ws ∧ (s.meetTriggers f b).bs = s.bs ∧
    (s.meetTriggers f b).mu = s.mu ∧ (s.meetTriggers f b).ports = s.ports ∧ (s.meetTriggers f b).pins = s.pins ∧
    (s.meetTriggers f b).pending = s.pending := by
  unfold State.meetTriggers
  split
  · refine ⟨?_, ?_, ?_, ?_, ?_, ?_, ?_, ?_, ?_, ?_⟩ <;> exact foldl_keeps _ _ (fun s ti => by split <;> simp) _ s
  · simp

@[simp] theorem State.meetStart_keeps (s : State) :
    (s.meetStart).tb = s.tb ∧ (s.meetStart).now = s.now ∧ (s.meetStart).biu = s.biu ∧ (s.meetStart).st = s.st ∧
    (s.meetStart).ws = s.ws ∧ (s.meetStart).bs = s.bs ∧ (s.meetStart).mu = s.mu ∧ (s.meetStart).ports = s.ports ∧
    (s.meetStart).pins = s.pins ∧ (s.meetStart).pending = s.pending := by
  unfold State.meetStart
  (repeat' split) <;> simp

/-- Meeting an exit changes of the run record only the pending transition and the held trigger (R61, R64). -/
theorem State.meetExit_sq (s : State) (c : ExitCause) (x : Fin 64) (m : PeerMode) (b : Tick) :
    ∃ p h, (s.meetExit c x m b).1.sq = { s.sq with pendingTr := p, held := h } := by
  unfold State.meetExit
  (repeat' split) <;> first | exact ⟨_, _, rfl⟩ | exact ⟨_, _, (State.propose_keeps _ _ _).2.2.2.2.1⟩

end Sys2Proof.Machine
end

