-- ==== Sys2Proof/Laws/Breakers.lean ====
section
/-! SUPPORT. What the breakers keep, said once for every part of the state: a part that a commit, a change of a breaker, the drive
of the outputs, a change of a channel and a handing keep is kept by everything BS does of an event. -/

namespace Sys2Proof.Machine

/-! ### A trip and the poles in CLOSING (R109, R110) -/

/-- A trip without a number fails on no pole at its taking (R106). -/
@[simp] theorem Breaker.failsAtTaking_none (b : Breaker) (p : Fin 3) : b.failsAtTaking none p = false := rfl

@[simp] theorem Breaker.failsAtTaking_some (b : Breaker) (n : Nat) (p : Fin 3) :
    b.failsAtTaking (some n) p = b.cfg.fails n p := rfl

/-- All that remembering a trip can do to a pole (R110). -/
theorem Pole.remember_cases (x : Pole) (serial : Nat) (number : Option Nat) :
    x.remember serial number = x ∧ (x.state = .closing → x.remembered ≠ none) ∨
      x.state = .closing ∧ x.remembered = none ∧
        x.remember serial number = { x with remembered := some { serial := serial, number := number } } := by
  unfold Pole.remember
  split
  next h r => exact .inr ⟨h, r, rfl⟩
  next h => exact .inl ⟨rfl, fun c r => h c r⟩

/-- A pole keeps its state when it remembers a trip. -/
@[simp] theorem Pole.remember_state (x : Pole) (serial : Nat) (number : Option Nat) :
    (x.remember serial number).state = x.state := by
  obtain ⟨h, _⟩ | ⟨_, _, h⟩ := x.remember_cases serial number <;> rw [h]

/-! ### What BS keeps -/

/-- A part `π` of the state that what BS is made of keeps. -/
structure KeptByBreakers {α : Type} (π : State → α) : Prop where
  commit : ∀ s b, π (s.commit b) = π s
  putBreaker : ∀ s k b, π (s.putBreaker k b) = π s
  driveOutputs : ∀ s, π s.driveOutputs = π s
  channels : ∀ (s : State) (v : Vector Channel 10), π { s with ws := { s.ws with channels := v } } = π s
  handing : ∀ s h, π (s.takeHanding h) = π s

/-- What each of the poles keeps, a group keeps. -/
theorem forPoles_keeps {α : Type} (π : State → α) (w : BitVec 3) (f : BreakerStep → Fin 3 → BreakerStep)
    (hf : ∀ x p, π (f x p).sys = π x.sys) (x : BreakerStep) : π (forPoles w f x).sys = π x.sys :=
  foldl_keeps (fun x => π x.sys) _ (fun x p => by split <;> simp [hf]) _ x

namespace KeptByBreakers

variable {α : Type} {π : State → α} (h : KeptByBreakers π)
include h

/-- BS keeps on an event what each of its changes and each handing keeps. -/
theorem onBreakers (s : State) (f : BreakerStep → BreakerStep) (hf : ∀ x, π (f x).sys = π x.sys) :
    π (s.onBreakers f) = π s := by
  unfold State.onBreakers
  dsimp only
  rw [foldl_keeps π _ (fun s b => h.handing s b)]
  exact hf _

theorem putPole (s : State) (k : Fin 4) (p : Fin 3) (x : Pole) : π (s.putPole k p x) = π s := h.putBreaker ..

theorem mapAssoc (s : State) (k : Fin 4) (p : Fin 3) (f : Channel → Channel) : π (s.mapAssoc k p f) = π s := h.channels ..

theorem publish (x : BreakerStep) (e : BreakerEvent) : π (x.publish e).sys = π x.sys := h.commit ..

theorem publishFailure (x : BreakerStep) (e : BreakerEvent) (p : Fin 3) : π (x.publishFailure e p).sys = π x.sys := h.commit ..

theorem changePole (x : BreakerStep) (k : Fin 4) (p : Fin 3) (y : Pole) : π (x.changePole k p y).sys = π x.sys :=
  (h.driveOutputs _).trans (h.putPole ..)

theorem openPole (x : BreakerStep) (t : Tick) (k : Fin 4) (p : Fin 3) : π (x.openPole t k p).sys = π x.sys := by
  unfold BreakerStep.openPole
  dsimp only
  split
  · rw [h.publish, h.changePole]
  · rfl

theorem announceOpen (x : BreakerStep) (v : Vector Pole 3) (k : Fin 4) (t : Tick) (n : Option Nat) :
    π (x.announceOpen v k t n).sys = π x.sys := by
  unfold BreakerStep.announceOpen
  split
  · exact h.publish ..
  · rfl

theorem announceClosed (x : BreakerStep) (v : Vector Pole 3) (k : Fin 4) (t : Tick) :
    π (x.announceClosed v k t).sys = π x.sys := by
  unfold BreakerStep.announceClosed
  split
  · exact h.publish ..
  · rfl

theorem openInTurn (x : BreakerStep) (t : Tick) (k : Fin 4) (p : Fin 3) : π (x.openInTurn t k p).sys = π x.sys := by
  unfold BreakerStep.openInTurn
  split
  · rfl
  · exact h.openPole ..

theorem openDone (x : BreakerStep) (k : Fin 4) (t : Tick) : π (x.openDone k t).sys = π x.sys := by
  unfold BreakerStep.openDone
  dsimp only
  rw [h.announceOpen]
  exact foldl_keeps (fun x => π x.sys) _ (fun x p => h.openInTurn ..) _ x

theorem partPole (x : BreakerStep) (t : Tick) (f : Option Tick) (k : Fin 4) (p : Fin 3) :
    π (x.partPole t f k p).sys = π x.sys := by
  unfold BreakerStep.partPole
  dsimp only
  split <;> simp only [h.openPole, h.publish, BreakerStep.map, h.mapAssoc, h.changePole]

theorem partGroup (x : BreakerStep) (k : Fin 4) (w : BitVec 3) (t : Tick) (f : Option Tick) :
    π (x.partGroup k w t f).sys = π x.sys := by
  unfold BreakerStep.partGroup
  dsimp only
  rw [h.announceOpen]
  exact forPoles_keeps π _ _ (fun x p => h.partPole ..) x

theorem failToOpen (x : BreakerStep) (k : Fin 4) (p : Fin 3) (t : Tick) (n : Option Nat) (l : Bool) :
    π (x.failToOpen k p t n l).sys = π x.sys := h.publishFailure ..

theorem tripPole (x : BreakerStep) (k : Fin 4) (n : Nat) (t u : Tick) (p : Fin 3) :
    π (x.tripPole k n t u p).sys = π x.sys := by
  unfold BreakerStep.tripPole
  dsimp only
  (repeat' split) <;> simp only [h.failToOpen, BreakerStep.map, h.putPole, h.changePole]

theorem takeTrip (x : BreakerStep) (k : Fin 4) (w : BitVec 3) (t u : Tick) : π (x.takeTrip k w t u).sys = π x.sys := by
  unfold BreakerStep.takeTrip
  split
  · dsimp only
    rw [h.partGroup, forPoles_keeps π _ _ (fun x p => h.tripPole ..)]
    exact h.putBreaker ..
  · rfl

theorem completePole (x : BreakerStep) (t : Tick) (f : Option Tick) (k : Fin 4) (p : Fin 3) :
    π (x.completePole t f k p).sys = π x.sys := by
  unfold BreakerStep.completePole
  simp only [h.publish, BreakerStep.map, h.mapAssoc, h.changePole]

theorem actRemembered (x : BreakerStep) (t : Tick) (k : Fin 4) (p : Fin 3) : π (x.actRemembered t k p).sys = π x.sys := by
  unfold BreakerStep.actRemembered
  dsimp only
  split
  · rfl
  · simp only [h.tripPole, BreakerStep.map, h.putPole, h.putBreaker]

theorem completeGroup (x : BreakerStep) (k : Fin 4) (w : BitVec 3) (t : Tick) (f : Option Tick) :
    π (x.completeGroup k w t f).sys = π x.sys := by
  unfold BreakerStep.completeGroup
  dsimp only
  rw [forPoles_keeps π _ _ (fun x p => h.actRemembered ..), h.announceClosed]
  exact forPoles_keeps π _ _ (fun x p => h.completePole ..) x

theorem openingDeadlines (x : BreakerStep) (k : Fin 4) (w : BitVec 3) (t : Tick) :
    π (x.openingDeadlines k w t).sys = π x.sys := by
  unfold BreakerStep.openingDeadlines
  dsimp only
  rw [h.announceClosed]
  exact forPoles_keeps π _ _ (fun x p => by rw [h.failToOpen, h.changePole]) x

theorem closingDeadlines (x : BreakerStep) (k : Fin 4) (w : BitVec 3) (t : Tick) :
    π (x.closingDeadlines k w t).sys = π x.sys := by
  unfold BreakerStep.closingDeadlines
  dsimp only
  rw [h.announceOpen]
  exact forPoles_keeps π _ _ (fun x p => by rw [h.publishFailure, h.changePole]) x

theorem refuseClose (x : BreakerStep) (k : Fin 4) (t : Tick) (r : RefuseReason) :
    π (x.refuseClose k t r).sys = π x.sys := h.publish ..

theorem takeClose (x : BreakerStep) (k : Fin 4) (t u : Tick) : π (x.takeClose k t u).sys = π x.sys := by
  unfold BreakerStep.takeClose
  dsimp only
  split
  · (repeat' split) <;> simp only [h.refuseClose, h.closingDeadlines, h.completeGroup] <;>
      exact (forPoles_keeps π _ _ (fun x p => h.changePole ..) _).trans (h.putBreaker ..)
  · rfl

theorem sourceEvent (x : BreakerStep) (y : Source) (t u : Tick) : π (x.sourceEvent y t u).sys = π x.sys := by
  have keep : ∀ (l : List (Fin 4)) (f : BreakerStep → Fin 4 → BreakerStep), (∀ x k, π (f x k).sys = π x.sys) →
      ∀ x, π (l.foldl f x).sys = π x.sys := fun l f hf x => foldl_keeps (fun x => π x.sys) f hf l x
  unfold BreakerStep.sourceEvent
  dsimp only
  rw [keep _ _ (fun x k => foldl_keeps (fun x => π x.sys) _ (fun x c => by split <;> simp [h.takeClose]) _ x)]
  exact keep _ _ (fun x k => foldl_keeps (fun x => π x.sys) _ (fun x c => by split <;> simp [h.takeTrip]) _ x) x

theorem feedbackEvent (x : BreakerStep) (i : Fin 16) (l : Level) (t u : Tick) :
    π (x.feedbackEvent i l t u).sys = π x.sys := by
  unfold BreakerStep.feedbackEvent
  refine foldl_keeps (fun x => π x.sys) _ (fun x k => ?_) _ x
  (repeat' split) <;> first | exact h.partGroup .. | exact h.completeGroup .. | rfl

theorem inputToBreakers (s : State) (i : Fin 16) (l : Level) (t u : Tick) : π (s.inputToBreakers i l t u) = π s := by
  unfold State.inputToBreakers
  split
  · exact h.onBreakers _ _ (fun x => by rw [h.feedbackEvent]; split <;> simp [h.sourceEvent])
  · rfl

theorem remoteToBreakers (s : State) (n : Fin 4) (i : Fin 16) (l : Level) (d : Nat) :
    π (s.remoteToBreakers n i l d) = π s := by
  unfold State.remoteToBreakers
  split
  · split
    · exact h.onBreakers _ _ (fun x => h.sourceEvent ..)
    · rfl
  · rfl

theorem failuresDue (x : BreakerStep) (k : Fin 4) (w : BitVec 3) (t : Tick) : π (x.failuresDue k w t).sys = π x.sys := by
  unfold BreakerStep.failuresDue
  exact forPoles_keeps π _ _ (fun x p => by
    dsimp only
    split
    · simp only [h.failToOpen, BreakerStep.map, h.putPole]
    · rfl) x

theorem naturalHandovers (s : State) (t : Tick) : π (s.naturalHandovers t) = π s := by
  unfold State.naturalHandovers
  split
  · dsimp only
    rw [h.onBreakers _ _ (fun x => foldl_keeps (fun x => π x.sys) _ (fun x k => h.openDone ..) _ x)]
    exact h.channels ..
  · rfl

theorem forcedHandover (s : State) (c : Fin 10) (t : Tick) : π (s.forcedHandover c t) = π s := by
  unfold State.forcedHandover
  dsimp only
  split
  · rw [h.onBreakers _ _ (fun x => by rw [h.openDone, h.publish])]
    exact h.channels ..
  · exact h.channels ..

end KeptByBreakers

end Sys2Proof.Machine
end

