-- ==== Sys2Proof/Laws/Run.lean ====
section
/-! SUPPORT. What the breakers, the close of a run and the entries leave unchanged, whatever they do: the time base, the state
table, the ports, the pins and the queue. -/

namespace Sys2Proof.Machine

/-- The parts of the state that neither the breakers, nor a close, nor an entry touches. -/
def State.base (s : State) : TimeBase × StateTable × Transports × Pins × List Instr := (s.tb, s.st, s.ports, s.pins, s.pending)

theorem State.base_ext {s t : State} (h : s.base = t.base) :
    s.tb = t.tb ∧ s.st = t.st ∧ s.ports = t.ports ∧ s.pins = t.pins ∧ s.pending = t.pending := by
  simpa [State.base] using h

@[simp] theorem State.putInput_base (s : State) (i : Fin 16) (x : Input) : (s.putInput i x).base = s.base := by
  simp [State.base]

@[simp] theorem State.putChannel_base (s : State) (c : Fin 10) (x : Channel) : (s.putChannel c x).base = s.base := by
  simp [State.base]

@[simp] theorem State.putBreaker_base (s : State) (k : Fin 4) (b : Breaker) : (s.putBreaker k b).base = s.base := by
  simp [State.base]

@[simp] theorem State.putPole_base (s : State) (k : Fin 4) (p : Fin 3) (x : Pole) : (s.putPole k p x).base = s.base := by
  simp [State.base]

@[simp] theorem State.putMeas_base (s : State) (m : Fin 32) (x : Measurement) : (s.putMeas m x).base = s.base := by
  simp [State.base]

@[simp] theorem State.setPr_base (s : State) (pr : Ring) : (s.setPr pr).base = s.base := by
  simp [State.base]

@[simp] theorem State.setRs_base (s : State) (rs : Store) : (s.setRs rs).base = s.base := by
  simp [State.base]

@[simp] theorem State.raise_base (s : State) (d : Detail) : (s.raise d).base = s.base := by
  simp [State.base]

@[simp] theorem State.raiseOn_base (s : State) (p : Port) (d : Detail) : (s.raiseOn p d).base = s.base := by
  simp [State.base]

@[simp] theorem State.raiseRunState_base (s : State) : (s.raiseRunState).base = s.base := by
  simp [State.base]

@[simp] theorem State.driveOutputs_base (s : State) : (s.driveOutputs).base = s.base := by
  simp [State.base]

@[simp] theorem State.settleSpace_base (s : State) : (s.settleSpace).base = s.base := by
  simp [State.base]

@[simp] theorem State.releaseReserve_base (s : State) : (s.releaseReserve).base = s.base := by
  simp [State.base]

@[simp] theorem State.followSetpoints_base (s : State) (t : Tick) : (s.followSetpoints t).base = s.base := by
  simp [State.base]

@[simp] theorem State.forward_base (s : State) (m : Message) : (s.forward m).base = s.base := by
  simp [State.base]

@[simp] theorem State.endImpairment_base (s : State) (k : ImpKind) (x : Option Nat) (t : Tick) : (s.endImpairment k x t).base = s.base := by
  simp [State.base]

@[simp] theorem State.commit_base (s : State) (b : RecordBody) : (s.commit b).base = s.base := by
  simp [State.base]

@[simp] theorem State.openImpairment_base (s : State) (k : ImpKind) (x : Option Nat) (t : Tick) : (s.openImpairment k x t).base = s.base := by
  simp [State.base]

@[simp] theorem State.muEvent_base (s : State) (e : MuEvent) (t : Tick) (p : Bool) : (s.muEvent e t p).base = s.base := by
  simp [State.base]

@[simp] theorem State.settleEvents_base (s : State) : s.settleEvents.base = s.base := by
  simp [State.base]

@[simp] theorem State.resolveAll_base (s : State) (r : CloseReason) (t : Tick) : (s.resolveAll r t).base = s.base := by
  simp [State.base]

@[simp] theorem State.send_base (s : State) (b : MsgBody) : (s.send b).base = s.base := by
  simp [State.base]

@[simp] theorem State.peerRecord_base (s : State) (i : PeerInfo) : (s.peerRecord i).base = s.base := by
  simp [State.base]

@[simp] theorem State.sendShared_base (s : State) (e : SharedEvent) (d : Nat) : (s.sendShared e d).base = s.base := by
  simp [State.base]

@[simp] theorem State.propose_base (s : State) (x : Option (Fin 64)) (m : PeerMode) : (s.propose x m).base = s.base := by
  simp [State.base]

@[simp] theorem State.meetTriggers_base (s : State) (f : Cond → Bool) (b : Tick) : (s.meetTriggers f b).base = s.base := by
  simp [State.base]

@[simp] theorem State.meetStart_base (s : State) : (s.meetStart).base = s.base := by
  simp [State.base]

@[simp] theorem State.meetExit_base (s : State) (c : ExitCause) (x : Fin 64) (m : PeerMode) (b : Tick) :
    (s.meetExit c x m b).1.base = s.base := by
  simp [State.base]

@[simp] theorem State.mk_base (s : State) (now : Instant) (biu : Biu) (sq : Sequencer) (ws : Synth) (bs : BreakerSim)
    (mu : MeasUnit) (rs : Store) (pr : Ring) (notices : NoticeBoard) (out : Wires) :
    State.base (State.mk s.tb now biu s.st sq ws bs mu rs pr s.ports notices s.pins out s.pending) = s.base := rfl

/-- What BS is made of keeps the part, so all that BS does of an event keeps it (Laws/Breakers). -/
theorem base_keptByBreakers : KeptByBreakers State.base where
  commit := by simp
  putBreaker := by simp
  driveOutputs := by simp
  channels := fun _ _ => rfl
  handing := fun s h => by
    unfold State.takeHanding
    (repeat' split) <;> simp

@[simp] theorem State.mapAssoc_base (s : State) (k : Fin 4) (p : Fin 3) (f : Channel → Channel) :
    (s.mapAssoc k p f).base = s.base := base_keptByBreakers.mapAssoc ..

@[simp] theorem State.inputToBreakers_base (s : State) (i : Fin 16) (l : Level) (t u : Tick) :
    (s.inputToBreakers i l t u).base = s.base := base_keptByBreakers.inputToBreakers ..

@[simp] theorem State.remoteToBreakers_base (s : State) (n : Fin 4) (i : Fin 16) (l : Level) (d : Nat) :
    (s.remoteToBreakers n i l d).base = s.base := base_keptByBreakers.remoteToBreakers ..

@[simp] theorem State.naturalHandovers_base (s : State) (t : Tick) : (s.naturalHandovers t).base = s.base :=
  base_keptByBreakers.naturalHandovers ..

@[simp] theorem State.forcedHandover_base (s : State) (c : Fin 10) (t : Tick) : (s.forcedHandover c t).base = s.base :=
  base_keptByBreakers.forcedHandover ..

@[simp] theorem State.freezeRun_base (s : State) (t : Tick) :
    (s.freezeRun t).base = s.base := by
  rfl

@[simp] theorem State.sendAbort_base (s : State) (c : Option CloseReason) :
    (s.sendAbort c).base = s.base := by
  unfold State.sendAbort
  (repeat' split) <;> simp

@[simp] theorem State.abortAtClose_base (s : State) (c : CloseReason) :
    (s.abortAtClose c).base = s.base := by
  unfold State.abortAtClose
  (repeat' split) <;> simp

@[simp] theorem State.leaveRun_base (s : State) (c : CloseReason) :
    (s.leaveRun c).base = s.base := by
  unfold State.leaveRun
  (try dsimp only)
  simp

@[simp] theorem State.closeRun_base (s : State) (c : CloseReason) (t : Tick) :
    (s.closeRun c t).base = s.base := by
  unfold State.closeRun
  (try dsimp only)
  simp

@[simp] theorem State.endUnstarted_base (s : State) (b : Bool) (x : RunState) :
    (s.endUnstarted b x).base = s.base := by
  unfold State.endUnstarted
  (try dsimp only)
  (repeat' split) <;> simp

@[simp] theorem State.endRun_base (s : State) (c : CloseReason) (b : Bool) :
    (s.endRun c b).base = s.base := by
  unfold State.endRun
  (repeat' split) <;> simp

@[simp] theorem State.emergencyStop_base (s : State) (x : EstopSource) :
    (s.emergencyStop x).base = s.base := by
  unfold State.emergencyStop
  (try dsimp only)
  (repeat' split) <;> simp

@[simp] theorem State.trap_base (s : State) (k : Fin 64) (c : TrapCause) (d : Option Nat) (t : Tick) :
    (s.trap k c d t).base = s.base := by
  unfold State.trap
  simp

@[simp] theorem State.acceptProposal_base (s : State) (j : Nat) (p : Proposal) :
    (s.acceptProposal j p).base = s.base := by
  unfold State.acceptProposal
  (try dsimp only)
  simp

@[simp] theorem State.declineProposal_base (s : State) (j : Nat) (p : Proposal) :
    (s.declineProposal j p).base = s.base := by
  unfold State.declineProposal
  simp

@[simp] theorem State.deferProposal_base (s : State) (p : Proposal) :
    (s.deferProposal p).base = s.base := by
  unfold State.deferProposal
  (try dsimp only)
  simp

@[simp] theorem State.answerProposal_base (s : State) (j : Nat) (p : Proposal) :
    (s.answerProposal j p).base = s.base := by
  unfold State.answerProposal
  (try dsimp only)
  (repeat' split) <;> simp

@[simp] theorem State.answerAtEntry_base (s : State) :
    (s.answerAtEntry).base = s.base := by
  unfold State.answerAtEntry
  (try dsimp only)
  (repeat' split) <;> simp

@[simp] theorem State.entryActions_base (s : State) (b : LiveBody) (t : Tick) : (s.entryActions b t).base = s.base :=
  base_keptByBreakers.onBreakers _ _ (fun x => foldl_keeps (fun x => x.sys.base) _
    (fun x k => by
      split <;> first | exact base_keptByBreakers.takeTrip .. | exact base_keptByBreakers.takeClose .. | rfl) _ x)

@[simp] theorem State.recordEntry_base (s : State) (k : Fin 64) (c : EntryCause) (t : Tick) :
    (s.recordEntry k c t).base = s.base := by
  unfold State.recordEntry
  simp

@[simp] theorem State.evaluateEntry_base (s : State) (t : Tick) :
    (s.evaluateEntry t).base = s.base := by
  unfold State.evaluateEntry
  simp

@[simp] theorem State.enterLive_base (s : State) (k : Fin 64) (b : LiveBody) (r : Option RampSpec) (c : EntryCause) (a : Bool) (t : Tick) :
    (s.enterLive k b r c a t).base = s.base := by
  unfold State.enterLive
  (try dsimp only)
  (repeat' split) <;> simp

@[simp] theorem State.enterEnd_base (s : State) (k : Fin 64) (c : EntryCause) (t : Tick) :
    (s.enterEnd k c t).base = s.base := by
  unfold State.enterEnd
  simp

@[simp] theorem State.enterSlot_base (s : State) (k : Fin 64) (c : EntryCause) (a : Bool) (t : Tick) :
    (s.enterSlot k c a t).base = s.base := by
  unfold State.enterSlot
  (repeat' split) <;> simp

@[simp] theorem State.anchorStart_base (s : State) (n : Nat) (t : Tick) :
    (s.anchorStart n t).base = s.base := by
  rfl

@[simp] theorem State.startImpairments_base (s : State) (b : Bool) (t : Tick) :
    (s.startImpairments b t).base = s.base := by
  have h : ∀ l : List (Fin 16), State.base (l.foldl (fun s i =>
      if s.biu.inputs[i].chattering then s.openImpairment .chatter (some i.val) t else s) s) = s.base :=
    fun l => foldl_keeps State.base _ (fun s i => by split <;> simp) l s
  unfold State.startImpairments
  dsimp only
  (repeat' split) <;> first | (simp only [State.openImpairment_base]; exact h _) | exact h _

@[simp] theorem State.startRun_base (s : State) (t : Tick) :
    (s.startRun t).base = s.base := by
  unfold State.startRun
  (try dsimp only)
  (repeat' split) <;> simp

@[simp] theorem State.makeTransition_base (s : State) (t : Tick) :
    (s.makeTransition t).base = s.base := by
  unfold State.makeTransition
  (repeat' split) <;> simp

@[simp] theorem State.withdrawOwn_base (s : State) :
    (s.withdrawOwn).base = s.base := by
  unfold State.withdrawOwn
  (try dsimp only)
  (repeat' split) <;> simp

@[simp] theorem State.meetLimit_base (s : State) (k : Fin 64) (t : Tick) :
    (s.meetLimit k t).base = s.base := by
  unfold State.meetLimit
  (repeat' split) <;> simp

@[simp] theorem State.dwell_base (s : State) (r : RampSpec) (x : RampProgress) (t : Tick) :
    (s.dwell r x t).base = s.base := by
  unfold State.dwell
  (try dsimp only)
  (repeat' split) <;> simp

@[simp] theorem State.takeHeld_base (s : State) (t : Tick) :
    (s.takeHeld t).base = s.base := by
  unfold State.takeHeld
  (try dsimp only)
  (repeat' split) <;> simp

@[simp] theorem State.commitEntry_base (s : State) (t : Tick) :
    (s.commitEntry t).base = s.base := by
  unfold State.commitEntry
  (try dsimp only)
  (repeat' split) <;> simp

end Sys2Proof.Machine
end

