-- ==== Sys2Proof/Laws/Commands.lean ====
section
/-! SUPPORT. What the taking of a command can do (R180, R181, R187), what a reply keeps, and what the operations of the time base
and of the store's readers leave unchanged. -/

namespace Sys2Proof.Machine

/-! ### Taking a command -/

/-- With room in the queue and out of reset a command is executed, and its answer joins the queue. -/
theorem State.takeCommand_taken {s : State} {p : Port} (h : s.Takes p) (tag : Byte) (f : State → Answer) :
    s.takeCommand p tag f = (f s).deliver p tag := by
  obtain ⟨h1, h2⟩ := h
  have hf : (s.port p).full = false := by simp [Transport.full]; omega
  simp [State.takeCommand, h1, hf]

/-- At a full queue a command is lost. -/
theorem State.takeCommand_full {s : State} {p : Port} (h : s.pins.resetN = true) (hq : 4 ≤ (s.port p).queue.length)
    (tag : Byte) (f : State → Answer) : s.takeCommand p tag f = s.loseFrame p := by
  simp [State.takeCommand, h, Transport.full, hq]

/-- In reset no command is taken. -/
theorem State.takeCommand_reset {s : State} (h : s.pins.resetN = false) (p : Port) (tag : Byte) (f : State → Answer) :
    s.takeCommand p tag f = s := by
  simp [State.takeCommand, h]

@[simp] theorem Answer.deliver_mk (s : State) (p : Port) (tag : Byte) (c : ResultCode) (b : ReplyBody) :
    Answer.deliver { st := s, code := c, body := b } p tag = s.replied p tag c b := rfl

@[simp] theorem State.ok_deliver (s : State) (p : Port) (tag : Byte) : s.ok.deliver p tag = s.replied p tag .ok .empty := rfl

@[simp] theorem State.okWith_deliver (s : State) (b : ReplyBody) (p : Port) (tag : Byte) :
    (s.okWith b).deliver p tag = s.replied p tag .ok b := rfl

@[simp] theorem State.refuse_deliver (s : State) (c : ResultCode) (p : Port) (tag : Byte) :
    (s.refuse c).deliver p tag = s.replied p tag c .empty := rfl

@[simp] theorem State.replied_keeps (s : State) (p : Port) (tag : Byte) (c : ResultCode) (b : ReplyBody) :
    (s.replied p tag c b).tb = s.tb ∧ (s.replied p tag c b).now = s.now ∧ (s.replied p tag c b).biu = s.biu ∧
    (s.replied p tag c b).st = s.st ∧ (s.replied p tag c b).sq = s.sq ∧ (s.replied p tag c b).ws = s.ws ∧
    (s.replied p tag c b).bs = s.bs ∧ (s.replied p tag c b).mu = s.mu ∧ (s.replied p tag c b).rs = s.rs ∧
    (s.replied p tag c b).pr = s.pr ∧ (s.replied p tag c b).notices = s.notices ∧ (s.replied p tag c b).pins = s.pins ∧
    (s.replied p tag c b).out = s.out ∧ (s.replied p tag c b).pending = s.pending := by
  simp [State.replied]

/-- The ports after a reply depend on the ports before it alone. -/
theorem State.replied_ports {s t : State} (h : t.ports = s.ports) (p : Port) (tag : Byte) (c : ResultCode) (b : ReplyBody) :
    (t.replied p tag c b).ports = (s.replied p tag c b).ports := by
  simp [State.replied, State.pushReply, State.setPort, State.port, h]

/-- A reply given after steps that keep the ports answers the state they began from. -/
theorem State.answered_of_ports {s t : State} (h : t.ports = s.ports) (p : Port) (tag : Byte) (c : ResultCode)
    (b : ReplyBody) : s.Answered p tag c b (t.replied p tag c b) := State.replied_ports h p tag c b

/-! ### Rows that act out of reset alone -/

theorem State.awake_out {s : State} (h : s.pins.resetN = true) (f : State → State) : s.awake f = f s := by
  simp [State.awake, h]

theorem State.awake_reset {s : State} (h : s.pins.resetN = false) (f : State → State) : s.awake f = s := by
  simp [State.awake, h]

/-! ### The time base (R3, R16) -/

@[simp] theorem State.timeRecord_keeps (s : State) (c : TimeCause) (d : Discipline) (e : Option Int) (x : Option (Nat × Nat)) :
    (s.timeRecord c d e x).tb = s.tb ∧ (s.timeRecord c d e x).now = s.now ∧ (s.timeRecord c d e x).biu = s.biu ∧
    (s.timeRecord c d e x).st = s.st ∧ (s.timeRecord c d e x).sq = s.sq ∧ (s.timeRecord c d e x).ws = s.ws ∧
    (s.timeRecord c d e x).bs = s.bs ∧ (s.timeRecord c d e x).mu = s.mu ∧ (s.timeRecord c d e x).pr = s.pr ∧
    (s.timeRecord c d e x).ports = s.ports ∧ (s.timeRecord c d e x).pins = s.pins ∧
    (s.timeRecord c d e x).out = s.out ∧ (s.timeRecord c d e x).pending = s.pending := by
  simp [State.timeRecord]

@[simp] theorem State.raiseTimeState_keeps (s : State) :
    s.raiseTimeState.tb = s.tb ∧ s.raiseTimeState.now = s.now ∧ s.raiseTimeState.biu = s.biu ∧ s.raiseTimeState.st = s.st ∧
    s.raiseTimeState.sq = s.sq ∧ s.raiseTimeState.ws = s.ws ∧ s.raiseTimeState.bs = s.bs ∧ s.raiseTimeState.mu = s.mu ∧
    s.raiseTimeState.rs = s.rs ∧ s.raiseTimeState.pr = s.pr ∧ s.raiseTimeState.ports = s.ports ∧
    s.raiseTimeState.pins = s.pins ∧ s.raiseTimeState.out = s.out ∧ s.raiseTimeState.pending = s.pending := by
  simp [State.raiseTimeState]

@[simp] theorem State.changeOffset_keeps (s : State) (o : Nat) :
    (s.changeOffset o).tb = { s.tb with offset := o } ∧ (s.changeOffset o).now = { s.now with realigned := true } ∧
    (s.changeOffset o).biu = s.biu ∧ (s.changeOffset o).st = s.st ∧ (s.changeOffset o).ws = s.ws ∧
    (s.changeOffset o).bs = s.bs ∧ (s.changeOffset o).mu = s.mu ∧ (s.changeOffset o).rs = s.rs ∧
    (s.changeOffset o).pr = s.pr ∧ (s.changeOffset o).ports = s.ports ∧ (s.changeOffset o).notices = s.notices ∧
    (s.changeOffset o).pins = s.pins ∧ (s.changeOffset o).out = s.out ∧ (s.changeOffset o).pending = s.pending := by
  simp [State.changeOffset]

/-- A change of the offset touches of the run record a start already met alone (R57). -/
theorem State.changeOffset_sq (s : State) (o : Nat) :
    ∃ x, (s.changeOffset o).sq = { s.sq with startPending := x } := ⟨_, rfl⟩

@[simp] theorem State.handDiscipline_keeps (s : State) (d : Discipline) :
    (s.handDiscipline d).tb = s.tb ∧ (s.handDiscipline d).now = s.now ∧ (s.handDiscipline d).biu = s.biu ∧
    (s.handDiscipline d).st = s.st ∧ (s.handDiscipline d).ws = s.ws ∧ (s.handDiscipline d).bs = s.bs ∧
    (s.handDiscipline d).mu = s.mu ∧ (s.handDiscipline d).pr = s.pr ∧ (s.handDiscipline d).ports = s.ports ∧
    (s.handDiscipline d).pins = s.pins ∧ (s.handDiscipline d).out = s.out ∧ (s.handDiscipline d).pending = s.pending := by
  unfold State.handDiscipline
  (repeat' split) <;> simp

/-- What a change of discipline state at TB does to the time base (R9 to R12). -/
theorem State.changeDiscipline_tb (s : State) (d : Discipline) (e : Option Int) :
    (s.changeDiscipline d e).tb =
      if s.tb.disc = d then s.tb
      else { s.tb with disc := d, holdover := if d = .holdover then some s.tb.et else none } := by
  unfold State.changeDiscipline
  split <;> simp

/-- A change of discipline state at TB touches TB, the store and the notices alone (R16). -/
@[simp] theorem State.changeDiscipline_keeps (s : State) (d : Discipline) (e : Option Int) :
    (s.changeDiscipline d e).now = s.now ∧ (s.changeDiscipline d e).biu = s.biu ∧ (s.changeDiscipline d e).st = s.st ∧
    (s.changeDiscipline d e).sq = s.sq ∧ (s.changeDiscipline d e).ws = s.ws ∧ (s.changeDiscipline d e).bs = s.bs ∧
    (s.changeDiscipline d e).mu = s.mu ∧ (s.changeDiscipline d e).pr = s.pr ∧ (s.changeDiscipline d e).ports = s.ports ∧
    (s.changeDiscipline d e).pins = s.pins ∧ (s.changeDiscipline d e).out = s.out ∧
    (s.changeDiscipline d e).pending = s.pending := by
  unfold State.changeDiscipline
  split <;> simp

/-- What TB did, told to SQ, touches the impairment list, the store and the notices alone (R72). -/
@[simp] theorem State.tellDiscipline_keeps (s : State) (d : Discipline) :
    (s.tellDiscipline d).tb = s.tb ∧ (s.tellDiscipline d).now = s.now ∧ (s.tellDiscipline d).biu = s.biu ∧
    (s.tellDiscipline d).st = s.st ∧ (s.tellDiscipline d).ws = s.ws ∧ (s.tellDiscipline d).bs = s.bs ∧
    (s.tellDiscipline d).mu = s.mu ∧ (s.tellDiscipline d).pr = s.pr ∧ (s.tellDiscipline d).ports = s.ports ∧
    (s.tellDiscipline d).pins = s.pins ∧ (s.tellDiscipline d).out = s.out ∧ (s.tellDiscipline d).pending = s.pending := by
  unfold State.tellDiscipline
  split <;> simp

/-- What a change of discipline state does to the time base (R9 to R12). -/
theorem State.setDiscipline_tb (s : State) (d : Discipline) (e : Option Int) :
    (s.setDiscipline d e).tb =
      if s.tb.disc = d then s.tb
      else { s.tb with disc := d, holdover := if d = .holdover then some s.tb.et else none } := by
  simp [State.setDiscipline, State.changeDiscipline_tb]

@[simp] theorem State.setDiscipline_keeps (s : State) (d : Discipline) (e : Option Int) :
    (s.setDiscipline d e).now = s.now ∧ (s.setDiscipline d e).biu = s.biu ∧ (s.setDiscipline d e).st = s.st ∧
    (s.setDiscipline d e).ws = s.ws ∧ (s.setDiscipline d e).bs = s.bs ∧ (s.setDiscipline d e).mu = s.mu ∧
    (s.setDiscipline d e).pr = s.pr ∧ (s.setDiscipline d e).ports = s.ports ∧ (s.setDiscipline d e).pins = s.pins ∧
    (s.setDiscipline d e).out = s.out ∧ (s.setDiscipline d e).pending = s.pending := by
  simp [State.setDiscipline]

/-- The interval list and the overflow mark are all that an impairment handed to SQ changes of the run record (R71). -/
theorem State.handDiscipline_sq (s : State) (d : Discipline) :
    ∃ l o, (s.handDiscipline d).sq = { s.sq with impairments := l, overflow := o } := by
  unfold State.handDiscipline
  split
  · exact ⟨_, _, rfl⟩
  · split
    · exact State.openImpairment_sq s _ _ _
    · exact ⟨_, _, rfl⟩

theorem State.tellDiscipline_sq (s : State) (d : Discipline) :
    ∃ l o, (s.tellDiscipline d).sq = { s.sq with impairments := l, overflow := o } := by
  unfold State.tellDiscipline
  split
  · exact ⟨_, _, rfl⟩
  · exact State.handDiscipline_sq s _

theorem State.setDiscipline_sq (s : State) (d : Discipline) (e : Option Int) :
    ∃ l o, (s.setDiscipline d e).sq = { s.sq with impairments := l, overflow := o } := by
  unfold State.setDiscipline
  have h := State.tellDiscipline_sq (s.changeDiscipline d e) s.tb.disc
  simpa using h

/-! ### Readers (R146, R150) -/

@[simp] theorem State.moveReader_keeps (s : State) (p : Port) (rd : Reader) :
    (s.moveReader p rd).tb = s.tb ∧ (s.moveReader p rd).now = s.now ∧ (s.moveReader p rd).biu = s.biu ∧
    (s.moveReader p rd).st = s.st ∧ (s.moveReader p rd).sq = s.sq ∧ (s.moveReader p rd).ws = s.ws ∧
    (s.moveReader p rd).bs = s.bs ∧ (s.moveReader p rd).mu = s.mu ∧ (s.moveReader p rd).pr = s.pr ∧
    (s.moveReader p rd).ports = s.ports ∧ (s.moveReader p rd).pins = s.pins ∧ (s.moveReader p rd).out = s.out ∧
    (s.moveReader p rd).pending = s.pending := by
  simp [State.moveReader]

@[simp] theorem State.readyIfBeyond_keeps (s : State) (p : Port) :
    (s.readyIfBeyond p).tb = s.tb ∧ (s.readyIfBeyond p).now = s.now ∧ (s.readyIfBeyond p).biu = s.biu ∧
    (s.readyIfBeyond p).st = s.st ∧ (s.readyIfBeyond p).sq = s.sq ∧ (s.readyIfBeyond p).ws = s.ws ∧
    (s.readyIfBeyond p).bs = s.bs ∧ (s.readyIfBeyond p).mu = s.mu ∧ (s.readyIfBeyond p).rs = s.rs ∧
    (s.readyIfBeyond p).pr = s.pr ∧ (s.readyIfBeyond p).ports = s.ports ∧ (s.readyIfBeyond p).pins = s.pins ∧
    (s.readyIfBeyond p).out = s.out ∧ (s.readyIfBeyond p).pending = s.pending := by
  unfold State.readyIfBeyond
  dsimp only
  split <;> simp

@[simp] theorem State.unreadyIfDone_keeps (s : State) (p : Port) :
    (s.unreadyIfDone p).tb = s.tb ∧ (s.unreadyIfDone p).now = s.now ∧ (s.unreadyIfDone p).biu = s.biu ∧
    (s.unreadyIfDone p).st = s.st ∧ (s.unreadyIfDone p).sq = s.sq ∧ (s.unreadyIfDone p).ws = s.ws ∧
    (s.unreadyIfDone p).bs = s.bs ∧ (s.unreadyIfDone p).mu = s.mu ∧ (s.unreadyIfDone p).rs = s.rs ∧
    (s.unreadyIfDone p).pr = s.pr ∧ (s.unreadyIfDone p).ports = s.ports ∧ (s.unreadyIfDone p).pins = s.pins ∧
    (s.unreadyIfDone p).out = s.out ∧ (s.unreadyIfDone p).pending = s.pending := by
  unfold State.unreadyIfDone
  dsimp only
  split <;> simp

end Sys2Proof.Machine
end

