-- ==== Sys2Proof/Laws/Course.lean ====
section
/-! SUPPORT. What the events of the breakers, the measurements and the ring leave of a run in progress: its state, number, owner,
options, active slot, entries and stream enable, and the inputs and the functions of the outputs. -/

namespace Sys2Proof.Machine

/-- The part of the run record and of the inputs and outputs that no breaker, measurement or met exit touches. -/
def State.course (s : State) : Vector Input 16 × Vector OutputFunc 8 × BitVec 8 × RunState × Nat × Option Port ×
    Option RunOptions × Option (Fin 64) × Option Tick × Nat × Option Stamp × Option CloseReason × Bool :=
  (s.biu.inputs, s.biu.funcs, s.biu.rest, s.sq.runState, s.sq.lastRun, s.sq.owner, s.sq.options, s.sq.active,
    s.sq.entryBoundary, s.sq.count, s.sq.startInstant, s.sq.lastClose, s.sq.streamEnable)

theorem State.course_ext {s t : State} (h : t.course = s.course) :
    (t.biu.inputs = s.biu.inputs ∧ t.biu.funcs = s.biu.funcs ∧ t.biu.rest = s.biu.rest) ∧ t.sq.runState = s.sq.runState ∧
      t.sq.lastRun = s.sq.lastRun ∧ t.sq.owner = s.sq.owner ∧ t.sq.options = s.sq.options ∧ t.sq.active = s.sq.active ∧
      t.sq.entryBoundary = s.sq.entryBoundary ∧ t.sq.count = s.sq.count ∧ t.sq.startInstant = s.sq.startInstant ∧
      t.sq.lastClose = s.sq.lastClose ∧ t.sq.streamEnable = s.sq.streamEnable := by
  simpa [State.course, and_assoc] using h

@[simp] theorem State.putChannel_course (s : State) (c : Fin 10) (x : Channel) :
    (s.putChannel c x).course = s.course := by
  simp [State.course]

@[simp] theorem State.putBreaker_course (s : State) (k : Fin 4) (b : Breaker) :
    (s.putBreaker k b).course = s.course := by
  simp [State.course]

@[simp] theorem State.putPole_course (s : State) (k : Fin 4) (p : Fin 3) (x : Pole) :
    (s.putPole k p x).course = s.course := by
  simp [State.course]

@[simp] theorem State.putMeas_course (s : State) (m : Fin 32) (x : Measurement) :
    (s.putMeas m x).course = s.course := by
  simp [State.course]

@[simp] theorem State.setPr_course (s : State) (pr : Ring) :
    (s.setPr pr).course = s.course := by
  simp [State.course]

@[simp] theorem State.setRs_course (s : State) (rs : Store) :
    (s.setRs rs).course = s.course := by
  simp [State.course]

@[simp] theorem State.raise_course (s : State) (d : Detail) :
    (s.raise d).course = s.course := by
  simp [State.course]

@[simp] theorem State.raiseOn_course (s : State) (p : Port) (d : Detail) :
    (s.raiseOn p d).course = s.course := by
  simp [State.course]

@[simp] theorem State.raiseRunState_course (s : State) :
    (s.raiseRunState).course = s.course := by
  simp [State.course]

@[simp] theorem State.driveOutputs_course (s : State) :
    (s.driveOutputs).course = s.course := by
  simp [State.course, State.driveOutputs]

@[simp] theorem State.settleSpace_course (s : State) :
    (s.settleSpace).course = s.course := by
  simp [State.course]

@[simp] theorem State.releaseReserve_course (s : State) :
    (s.releaseReserve).course = s.course := by
  simp [State.course]

@[simp] theorem State.followSetpoints_course (s : State) (t : Tick) :
    (s.followSetpoints t).course = s.course := by
  simp [State.course]

@[simp] theorem State.forward_course (s : State) (m : Message) :
    (s.forward m).course = s.course := by
  simp [State.course]

@[simp] theorem State.endImpairment_course (s : State) (k : ImpKind) (x : Option Nat) (t : Tick) :
    (s.endImpairment k x t).course = s.course := by
  simp [State.course, State.endImpairment]

@[simp] theorem State.commit_course (s : State) (b : RecordBody) :
    (s.commit b).course = s.course := by
  simp [State.course]

@[simp] theorem State.muEvent_course (s : State) (e : MuEvent) (t : Tick) (p : Bool) :
    (s.muEvent e t p).course = s.course := by
  simp [State.course]

@[simp] theorem State.settleEvents_course (s : State) : s.settleEvents.course = s.course := by
  simp [State.course]

@[simp] theorem State.resolveAll_course (s : State) (r : CloseReason) (t : Tick) :
    (s.resolveAll r t).course = s.course := by
  simp [State.course]

@[simp] theorem State.send_course (s : State) (b : MsgBody) :
    (s.send b).course = s.course := by
  simp [State.course]

@[simp] theorem State.peerRecord_course (s : State) (i : PeerInfo) :
    (s.peerRecord i).course = s.course := by
  simp [State.course]

@[simp] theorem State.sendShared_course (s : State) (e : SharedEvent) (d : Nat) :
    (s.sendShared e d).course = s.course := by
  simp [State.course]

@[simp] theorem State.propose_course (s : State) (x : Option (Fin 64)) (m : PeerMode) :
    (s.propose x m).course = s.course := by
  simp [State.course]

@[simp] theorem State.openImpairment_course (s : State) (k : ImpKind) (x : Option Nat) (t : Tick) :
    (s.openImpairment k x t).course = s.course := by
  obtain ⟨l, o, h⟩ := State.openImpairment_sq s k x t
  simp [State.course, h]

@[simp] theorem State.meetExit_course (s : State) (c : ExitCause) (x : Fin 64) (m : PeerMode) (b : Tick) :
    (s.meetExit c x m b).1.course = s.course := by
  obtain ⟨p, h, hsq⟩ := State.meetExit_sq s c x m b
  simp [State.course, hsq]

@[simp] theorem State.meetTriggers_course (s : State) (f : Cond → Bool) (b : Tick) :
    (s.meetTriggers f b).course = s.course := by
  unfold State.meetTriggers
  split
  · exact foldl_keeps State.course _ (fun s ti => by split <;> simp) _ s
  · rfl

@[simp] theorem State.meetStart_course (s : State) : s.meetStart.course = s.course := by
  unfold State.meetStart
  (repeat' split) <;> first | rfl | simp

@[simp] theorem State.mk_course (s : State) (now : Instant) (d : BitVec 8) (ws : Synth) (bs : BreakerSim)
    (mu : MeasUnit) (rs : Store) (pr : Ring) (notices : NoticeBoard) (out : Wires) :
    State.course (State.mk s.tb now { s.biu with driven := d } s.st s.sq ws bs mu rs pr s.ports notices s.pins out s.pending) =
      s.course := rfl

/-- What BS is made of keeps the part, so all that BS does of an event keeps it (Laws/Breakers). -/
theorem course_keptByBreakers : KeptByBreakers State.course where
  commit := by simp
  putBreaker := by simp
  driveOutputs := by simp
  channels := fun _ _ => rfl
  handing := fun s h => by
    unfold State.takeHanding
    (repeat' split) <;> simp

@[simp] theorem State.mapAssoc_course (s : State) (k : Fin 4) (p : Fin 3) (f : Channel → Channel) :
    (s.mapAssoc k p f).course = s.course := course_keptByBreakers.mapAssoc ..

@[simp] theorem State.inputToBreakers_course (s : State) (i : Fin 16) (l : Level) (t u : Tick) :
    (s.inputToBreakers i l t u).course = s.course := course_keptByBreakers.inputToBreakers ..

@[simp] theorem State.remoteToBreakers_course (s : State) (n : Fin 4) (i : Fin 16) (l : Level) (d : Nat) :
    (s.remoteToBreakers n i l d).course = s.course := course_keptByBreakers.remoteToBreakers ..

@[simp] theorem State.naturalHandovers_course (s : State) (t : Tick) : (s.naturalHandovers t).course = s.course :=
  course_keptByBreakers.naturalHandovers ..

@[simp] theorem State.forcedHandover_course (s : State) (c : Fin 10) (t : Tick) : (s.forcedHandover c t).course = s.course :=
  course_keptByBreakers.forcedHandover ..

end Sys2Proof.Machine
end

