-- ==== Sys2Proof/Laws/Close.lean ====
section
/-! SUPPORT. What the end of a run leaves: the close of a RUNNING run, the unstarted end of an ARMED one and the emergency stop
(R55, R66 to R69). -/

namespace Sys2Proof.Machine

@[simp] theorem State.sendAbort_keeps (s : State) (c : Option CloseReason) :
    (s.sendAbort c).tb = s.tb ∧ (s.sendAbort c).now = s.now ∧ (s.sendAbort c).biu = s.biu ∧ (s.sendAbort c).st = s.st ∧
    (s.sendAbort c).sq = s.sq ∧ (s.sendAbort c).ws = s.ws ∧ (s.sendAbort c).bs = s.bs ∧ (s.sendAbort c).mu = s.mu ∧
    (s.sendAbort c).pr = s.pr ∧ (s.sendAbort c).ports = s.ports ∧ (s.sendAbort c).pins = s.pins ∧
    (s.sendAbort c).pending = s.pending := by
  unfold State.sendAbort
  split <;> simp [State.peerRecord]

@[simp] theorem State.abortAtClose_keeps (s : State) (c : CloseReason) :
    (s.abortAtClose c).tb = s.tb ∧ (s.abortAtClose c).now = s.now ∧ (s.abortAtClose c).biu = s.biu ∧
    (s.abortAtClose c).st = s.st ∧ (s.abortAtClose c).sq = s.sq ∧ (s.abortAtClose c).ws = s.ws ∧
    (s.abortAtClose c).bs = s.bs ∧ (s.abortAtClose c).mu = s.mu ∧ (s.abortAtClose c).pr = s.pr ∧
    (s.abortAtClose c).ports = s.ports ∧ (s.abortAtClose c).pins = s.pins ∧
    (s.abortAtClose c).pending = s.pending := by
  unfold State.abortAtClose
  split <;> simp

@[simp] theorem State.leaveRun_keeps (s : State) (c : CloseReason) :
    (s.leaveRun c).tb = s.tb ∧ (s.leaveRun c).now = s.now ∧ (s.leaveRun c).st = s.st ∧ (s.leaveRun c).ws = s.ws ∧
    (s.leaveRun c).bs = s.bs ∧ (s.leaveRun c).mu = s.mu ∧ (s.leaveRun c).rs = s.rs ∧ (s.leaveRun c).ports = s.ports ∧
    (s.leaveRun c).pins = s.pins ∧ (s.leaveRun c).out = s.out ∧ (s.leaveRun c).pending = s.pending := by
  simp [State.leaveRun]

/-- What remains of the reserve is released (R55, step 7 of R67). -/
@[simp] theorem State.releaseReserve_reserve (s : State) : s.releaseReserve.rs.reserve = 0 := rfl

@[simp] theorem State.releaseReserve_records (s : State) : s.releaseReserve.rs.records = s.rs.records := rfl

@[simp] theorem State.releaseReserve_nextSeq (s : State) : s.releaseReserve.rs.nextSeq = s.rs.nextSeq := rfl

/-- The run record after a close (R67). -/
theorem State.closeRun_sq (s : State) (c : CloseReason) (t : Tick) :
    (s.closeRun c t).sq = { s.sq with
      runState := afterClose c, owner := none, active := none, pendingTr := none, held := none, heldDue := none,
      impairments := closeAllIntervals s.sq.impairments t, lastClose := some c } := by
  simp [State.closeRun, State.leaveRun, State.raiseRunState, State.raise, State.driveOutputs, State.freezeRun]

@[simp] theorem State.closeRun_reserve (s : State) (c : CloseReason) (t : Tick) : (s.closeRun c t).rs.reserve = 0 := by
  simp [State.closeRun]

/-- A close for a reason other than ESTOP leaves the part IDLE with nothing of the run (R67). -/
theorem State.closeRun_closed (s : State) (c : CloseReason) (t : Tick) (h : c ≠ .estop) : (s.closeRun c t).ClosedWith c := by
  simp [State.ClosedWith, State.closeRun_sq, afterClose, h]

/-- The run record after an unstarted end (R55). -/
theorem State.endUnstarted_sq (s : State) (silent : Bool) (after : RunState) :
    (s.endUnstarted silent after).sq = { s.sq with runState := after, owner := none, startPending := none } := by
  simp only [State.endUnstarted]
  split <;> simp

@[simp] theorem State.endUnstarted_reserve (s : State) (silent : Bool) (after : RunState) :
    (s.endUnstarted silent after).rs.reserve = 0 := by
  simp only [State.endUnstarted]
  split <;> simp

@[simp] theorem State.endUnstarted_keeps (s : State) (silent : Bool) (after : RunState) :
    (s.endUnstarted silent after).tb = s.tb ∧ (s.endUnstarted silent after).now = s.now ∧
    (s.endUnstarted silent after).biu = s.biu ∧ (s.endUnstarted silent after).st = s.st ∧
    (s.endUnstarted silent after).ws = s.ws ∧ (s.endUnstarted silent after).bs = s.bs ∧
    (s.endUnstarted silent after).mu = s.mu.deactivate ∧ (s.endUnstarted silent after).ports = s.ports ∧
    (s.endUnstarted silent after).pins = s.pins ∧ (s.endUnstarted silent after).pending = s.pending := by
  simp only [State.endUnstarted]
  split <;> simp

/-- The emergency stop in every run state (R69). -/
theorem State.emergencyStop_sq (s : State) (x : EstopSource) :
    (s.emergencyStop x).sq.runState = .inhibited ∧ (s.emergencyStop x).sq.streamEnable = false := by
  unfold State.emergencyStop State.endRun
  dsimp only
  split <;> simp [State.raise, State.closeRun_sq, State.endUnstarted_sq]

end Sys2Proof.Machine
end

