-- ==== Sys2Proof/Tests/Slice0.lean ====
section
/-! SUPPORT. Tests: a term that fails each check of WellFormed, the figures of the spec's worked cases, and for every statement a
state and operands that meet its hypotheses. -/

namespace Sys2Proof.Tests

open Sys2Proof Sys2Proof.Machine

-- The kernel evaluations of these theorems run one after another: at once, each would hold a stack of its own.
set_option Elab.async false

/-! ### Well-formed terms: what no field can carry is refused (R189, R190) -/

def aSetpoint : SetpointArg := { mag := 10000, angle := 0, freq := 50000, tau := some 400 }

def aRecord : RecordArg where
  kind := 0
  setpoints := some (Vector.replicate 10 aSetpoint)
  anchor := some 1
  pattern := some 0
  actions := some (Vector.replicate 4 0)
  limit := some (600000000, 1)
  triggers := [{ cond := .input 0 1, target := 1, mode := 0 }]
  ramp := none

def aBreaker : BreakerArgs where
  breaker := 0
  trips := [(.localInput 1, 0)]
  closes := [.remoteInput 2 3]
  opening := 40000
  closing := 80000
  scatter := #v[0, 100, 200]
  mode := .simulated
  fail := none
  out52a := some 0
  out52b := none
  assoc := #v[[0], [1], [2]]
  shared := 0

def aMeasurement : MeasArgs where
  index := 0
  kind := 0
  start := some .runStart
  stop := some (.onEvent (.inputLocal 0 1))
  time := some (60000, 5000)
  value := none
  rel := some 100
  window := none
  notify := 0

def anArm : ArmArgs where
  first := 0
  start := .command
  nominal := 50000
  lock := 0
  joint := 0
  positions := #v[0, 0, 0, 0]
  mask := 1

theorem test_wellFormed_accepts :
    (Instr.writeState .cp 1 63 aRecord).wellFormed ∧ (Instr.configureBreaker .cp 1 aBreaker).wellFormed ∧
      (Instr.defineMeasurement .cp 1 aMeasurement).wellFormed ∧ (Instr.arm .cp 1 anArm).wellFormed ∧
      (Instr.setTrim .cp 1 (-32768)).wellFormed ∧ (Instr.setReference .cp 1 255).wellFormed := by decide

theorem test_wellFormed_plain_fields :
    ¬(Instr.setReference .cp 1 256).wellFormed ∧ ¬(Instr.setTime .cp 1 4294967296 0).wellFormed ∧
      ¬(Instr.setTime .cp 1 0 4294967296).wellFormed ∧ ¬(Instr.setTrim .cp 1 32768).wellFormed ∧
      ¬(Instr.setTrim .cp 1 (-32769)).wellFormed ∧ ¬(Instr.clearState .cp 1 256).wellFormed ∧
      ¬(Instr.readState .cp 1 256).wellFormed ∧ ¬(Instr.readRecords .cp 1 256).wellFormed ∧
      ¬(Instr.configureRing .cp 1 256 0).wellFormed ∧ ¬(Instr.configureRing .cp 1 0 256).wellFormed ∧
      ¬(Instr.routeNotice .cp 1 256 0).wellFormed ∧ ¬(Instr.routeNotice .cp 1 0 256).wellFormed := by decide

theorem test_wellFormed_input_and_output :
    ¬(InputArgs.mk 256 0 0 0 0 0).fits ∧ ¬(InputArgs.mk 0 256 0 0 0 0).fits ∧ ¬(InputArgs.mk 0 0 65536 0 0 0).fits ∧
      ¬(InputArgs.mk 0 0 0 256 0 0).fits ∧ ¬(InputArgs.mk 0 0 0 0 256 0).fits ∧ ¬(InputArgs.mk 0 0 0 0 0 256).fits ∧
      ¬(OutputFuncArg.aux 256 0).fits ∧ ¬(OutputFuncArg.aux 0 256).fits ∧ ¬(OutputFuncArg.other 1).fits ∧
      ¬(OutputFuncArg.other 256).fits ∧ ¬(Instr.configureOutput .cp 1 256 .sequence).wellFormed := by decide

theorem test_wellFormed_record :
    ¬{ aRecord with kind := 256 }.fits ∧
      ¬{ aRecord with setpoints := some (Vector.replicate 10 { aSetpoint with mag := 16777216 }) }.fits ∧
      ¬{ aSetpoint with angle := 32768 }.fits ∧ ¬{ aSetpoint with freq := 16777216 }.fits ∧
      ¬{ aSetpoint with tau := some 65536 }.fits ∧ ¬{ aRecord with anchor := some 256 }.fits ∧
      ¬{ aRecord with pattern := some 256 }.fits ∧ ¬{ aRecord with actions := some #v[0, 0, 0, 256] }.fits ∧
      ¬{ aRecord with limit := some (4294967296, 0) }.fits ∧ ¬{ aRecord with limit := some (0, 256) }.fits ∧
      ¬{ aRecord with triggers := List.replicate 256 ⟨.peer, 0, 0⟩ }.fits ∧
      ¬{ aRecord with ramp := some ⟨65536, 0, 0, 0, 0⟩ }.fits ∧ ¬(Instr.writeState .cp 1 256 aRecord).wellFormed := by
  decide +kernel

theorem test_wellFormed_trigger_and_ramp :
    ¬(TriggerArg.mk .peer 256 0).fits ∧ ¬(TriggerArg.mk .peer 0 256).fits ∧ ¬(CondArg.input 256 0).fits ∧
      ¬(CondArg.remoteInput 256 0 0).fits ∧ ¬(CondArg.breaker 0 3).fits ∧ ¬(CondArg.other 7).fits ∧
      ¬(RampArg.mk 0 256 0 0 0).fits ∧ ¬(RampArg.mk 0 0 8388608 0 0).fits ∧ ¬(RampArg.mk 0 0 0 16777216 0).fits ∧
      ¬(RampArg.mk 0 0 0 0 65536).fits := by decide

theorem test_wellFormed_channels :
    ¬(DeclArg.ready 16777216).fits ∧ ¬(DeclArg.other 1).fits ∧ ¬(Instr.declareChannel .ap 1 256 .fault).wellFormed ∧
      ¬(CalArgs.mk 256 0 0 0).fits ∧ ¬(CalArgs.mk 0 32768 0 0).fits ∧ ¬(CalArgs.mk 0 0 128 0).fits ∧
      ¬(CalArgs.mk 0 0 0 (-32769)).fits := by decide

theorem test_wellFormed_breaker :
    ¬{ aBreaker with breaker := 256 }.fits ∧ ¬{ aBreaker with trips := [(.localInput 256, 0)] }.fits ∧
      ¬{ aBreaker with trips := [(.localInput 0, 256)] }.fits ∧ ¬{ aBreaker with closes := [.other 1] }.fits ∧
      ¬{ aBreaker with opening := 16777216 }.fits ∧ ¬{ aBreaker with closing := 16777216 }.fits ∧
      ¬{ aBreaker with scatter := #v[0, 0, 65536] }.fits ∧ ¬{ aBreaker with mode := .feedback 256 }.fits ∧
      ¬{ aBreaker with mode := .other 1 }.fits ∧ ¬{ aBreaker with fail := some (256, 0) }.fits ∧
      ¬{ aBreaker with out52a := some 255 }.fits ∧ ¬{ aBreaker with out52b := some 255 }.fits ∧
      ¬{ aBreaker with assoc := #v[[256], [], []] }.fits ∧ ¬{ aBreaker with shared := 256 }.fits := by decide

theorem test_wellFormed_measurement :
    ¬{ aMeasurement with index := 256 }.fits ∧ ¬{ aMeasurement with kind := 256 }.fits ∧
      ¬{ aMeasurement with start := some (.onEvent (.stateEntry 0) 256) }.fits ∧
      ¬{ aMeasurement with stop := some (.onEvent (.stateEntry 256)) }.fits ∧
      ¬{ aMeasurement with stop := some (.onEvent (.inputRemote 0 0 256)) }.fits ∧
      ¬{ aMeasurement with stop := some (.onEvent (.breaker 0 256)) }.fits ∧
      ¬{ aMeasurement with stop := some (.onEvent (.other 3)) }.fits ∧
      ¬{ aMeasurement with time := some (4294967296, 0) }.fits ∧
      ¬{ aMeasurement with value := some (0, 0, 8388608, 0) }.fits ∧ ¬{ aMeasurement with rel := some 65536 }.fits ∧
      ¬{ aMeasurement with window := some 4294967296 }.fits ∧ ¬{ aMeasurement with notify := 65536 }.fits := by decide

theorem test_wellFormed_arm :
    ¬{ anArm with first := 256 }.fits ∧ ¬{ anArm with start := .atTime 4294967296 0 }.fits ∧
      ¬{ anArm with start := .input 0 256 }.fits ∧ ¬{ anArm with start := .other 3 }.fits ∧
      ¬{ anArm with nominal := 16777216 }.fits ∧ ¬{ anArm with lock := 256 }.fits ∧ ¬{ anArm with joint := 65536 }.fits ∧
      ¬{ anArm with positions := #v[0, 0, 0, 256] }.fits := by decide

/-! ### Arithmetic: the figures of the worked cases -/

/-- R179: the CRC over the digits 1 to 9 as text is 29B1 hexadecimal. -/
theorem test_crc_check_value : crc16 [0x31, 0x32, 0x33, 0x34, 0x35, 0x36, 0x37, 0x38, 0x39] = 0x29B1#16 := by decide +kernel

/-- Worked case 5.9: amplitudes, phase offset, increment and decay factor. -/
theorem test_synthesis_setpoints :
    amplitude 10000 = 14142 ∧ amplitude 100000 = 141421 ∧ (phaseOffset (-9180) 0).toNat = 3199750636 ∧
      (increment 50000).toNat = 21474836 ∧ decayFactor 400 = 16735325 := by decide +kernel

/-- Worked case 5.9: the cosine of the fault frames. -/
theorem test_synthesis_cosines :
    cosTable 0 = 4194304 ∧ cosTable 786432 = 0 ∧ cosTable 791674 = 131724 ∧ cosTable 796917 = 263343 := by decide +kernel

/-! ### Small states, from which the statements' hypotheses are met -/

/-- `o` answers a next state of which `f` holds. -/
def goesTo (o : Host.Outcome State Fault Refusal) (f : State → Bool) : Bool :=
  match o with
  | .next t => f t
  | .fault _ => false
  | .refused _ => false

def quietEt : Tick := 1

/-- IDLE, one tick after a cold start: nothing is due. -/
def idle : State := { State.reset with tb := { State.reset.tb with et := quietEt } }

/-- `s` with trim and correction counter. -/
def trimmed (trim : Int) (corr : Nat) (s : State) : State := { s with tb := { s.tb with trim := trim, corr := corr } }

/-- `s` with source and discipline. -/
def disciplined (src : RefSource) (disc : Discipline) (s : State) : State :=
  { s with tb := { s.tb with source := src, disc := disc } }

/-- `s` at an ET. -/
def atEt (t : Tick) (s : State) : State := { s with tb := { s.tb with et := t } }

def aReply : Reply := { tag := 1, code := .ok, body := .empty }

/-- `s` with the reply queue of the control port full. -/
def crowded (s : State) : State := s.setPort .cp { s.port .cp with queue := [aReply, aReply, aReply, aReply] }

def held (s : State) : State := { s with pins := { s.pins with resetN := false } }

def options (start : StartCond) (joint : Nat) : RunOptions where
  first := 0
  start := start
  nominal := 50000
  requireLock := false
  joint := joint
  positions := Vector.replicate 4 false
  mask := 1

/-- ARMED, owned by the control port. -/
def armed (start : StartCond) (joint : Nat) : State :=
  { idle with sq := { idle.sq with runState := .armed, lastRun := 1, owner := some .cp, options := some (options start joint) } }

def theBody : LiveBody where
  setpoints := Vector.replicate 10 { mag := 0, angle := 0, freq := 50000, tau := none }
  anchor := true
  pattern := 1
  actions := Vector.replicate 4 .nothing
  limit := some (1000, 1)
  triggers := [{ cond := .advance, target := 1, mode := .alone }]

def theRamp : RampSpec where
  mask := 1
  quantity := .frequency
  delta := -100
  dwell := 1000
  maxSteps := 1

/-- RUNNING in slot 0 since the boundary at ET 0, with its record there and another in slot 1. -/
def runningWith (first second : Option StateRecord) (joint : Nat) : State :=
  { idle with
    sq := { idle.sq with
      runState := .running, lastRun := 1, owner := some .cp, options := some (options .command joint), active := some 0
      entryBoundary := some 0, count := 1 }
    st := { slots := upd (upd idle.st.slots 0 first) 1 second } }

def running : State := runningWith (some (.steady theBody)) none 0

def inhibited : State := { idle with sq := { idle.sq with runState := .inhibited, streamEnable := false } }

/-- `s` with pole A of breaker 0, and with the channels associated with its poles. -/
def withPole (mode : BreakerMode) (x : Pole) (assoc : Vector (List (Fin 10)) 3) (s : State) : State :=
  s.putBreaker 0
    { s.bs.breakers[0] with
      cfg := { s.bs.breakers[0].cfg with mode := mode, assoc := assoc }, poles := upd s.bs.breakers[0].poles 0 x }

/-- `s` with input 0 as given. -/
def withInput (x : Input) (s : State) : State := { s with biu := { s.biu with inputs := upd s.biu.inputs 0 x } }

def candidate : Candidate := { tFirst := { et := 0, dev := 0 }, lastChange := 0, bounces := 255 }

/-- Node 0 of an enabled ring with light, in a ring state. -/
def onRing (r : RingState) (s : State) : State :=
  { s with pr := { s.pr with enable := true, ring := r }, pins := { s.pins with light := true } }

def aProposal : Proposal := { proposer := 1, number := 9, target := none, mode := .preempt }

/-- `s` with a proposal of node `by'` standing in a role. -/
def proposing (role : Role) (p : Proposal) (toAccept : BitVec 4) (sentAt : Option Tick) (s : State) : State :=
  { s with pr := { s.pr with proposal := { ProposalState.idle with
      role := role, prop := some p, toAccept := toAccept, sentAt := sentAt } } }

def fromNode1 (body : MsgBody) : Message := { orig := 1, hop := 1, body := body }

def aBeacon (dev : Nat) : Beacon :=
  { tq := { disc := .free, suspect := true }, source := .noSource, dev := dev, runState := .idle, joint := 0 }

/-- The record kinds that a step has committed after START_UP, as R194 numbers them. -/
def committed (t : State) : List Nat := (t.rs.records.drop 1).map (fun r => r.body.code)

/-! ### Every statement's hypotheses are met

Each theorem names a state and operands that meet the hypotheses of the statement it is named after, clause by clause, at
the boundary values of their ranges. -/

theorem test_meets_StepTakesTheFrontCommand :
    { idle with pending := [.referenceMark] }.pending = .referenceMark :: [] := by decide

theorem test_meets_EmptyQueueRunsTheClock :
    (idle.pending = [] ∧ (held idle).pins.resetN = false ∧ idle.pins.resetN = true ∧ idle.nextDue = none ∧
      ¬(idle.tb.trim ≠ 0 ∧ 10000000 / idle.tb.trim.natAbs ≤ idle.tb.corr + 1)) ∧
    State.reset.nextDue = some (.inputSample 0) ∧
    ((trimmed 2000 4998 idle).nextDue = none ∧ ¬(10000000 / (2000 : Int).natAbs ≤ 4998 + 1)) ∧
    ((trimmed 2000 4999 idle).nextDue = none ∧ 10000000 / (2000 : Int).natAbs ≤ 4999 + 1) ∧
    ((trimmed (-1) 9999999 idle).nextDue = none ∧ 10000000 / (-1 : Int).natAbs ≤ 9999999 + 1) := by decide +kernel

theorem test_meets_InResetNothingIsDone :
    (held idle).pins.resetN = false ∧ goesTo (exec .referenceMark (held idle)) (fun t => !t.pins.resetN) ∧
      ((held idle).out.get .ap).cut = none ∧
      goesTo (exec (.transactionEnd .ap ⟨[1, 2], 0⟩ true) (held idle)) (fun t => t.out.ap.sent == [255, 255]) := by
  decide +kernel

theorem test_meets_FullQueueLosesTheCommand :
    carried (.readTime .cp 1) = some { port := .cp, tag := 1, code := 3, payload := [] } ∧
      (crowded idle).pins.resetN = true ∧ 4 ≤ ((crowded idle).port .cp).queue.length := by decide +kernel

theorem test_meets_TransactionCarriesTheCommand :
    (∃ f, carried (.setTrim .ap 7 (-32768)) = some f ∧ (Instr.setTrim .ap 7 (-32768)).wellFormed = true ∧
      f.payload.length ≤ 240) ∧
    (∃ f, carried (.restart .ap 7 false) = some f ∧ f.payload.length ≤ 240) ∧
    ((idle.setPort .ap { idle.port .ap with framing := some .emptyReply }).port .ap).framing = some .emptyReply :=
  ⟨⟨_, rfl, by decide, by decide⟩, ⟨_, rfl, by decide⟩, rfl⟩

theorem test_meets_RingMessagesReadBack :
    (fromNode1 (.beacon (aBeacon (devModulus - 1)))).body.Carries ∧ (fromNode1 (.abort 65535 none)).body.Carries ∧
      (fromNode1 (.propose 1 0 (some 63) .wait)).body.Carries ∧ (1 : Nat) ≤ 3 ∧
      { fromNode1 (.abort 0 none) with hop := 255 }.orig = (1 : Fin 4) := by
  simp only [MsgBody.Carries, fromNode1, aBeacon]; decide

def aFrame : SampleFrame where
  seconds := 0
  micros := 999999
  runState := .idle
  active := none
  samples := Vector.replicate 10 (-524287)
  pattern := 0
  streamEnable := true
  run := 0

theorem test_meets_RecordAndSampleFrameLayout :
    aFrame.micros < 1000000 ∧ ∀ c : Fin 10, -524287 ≤ aFrame.samples[c] ∧ aFrame.samples[c] ≤ 524287 := by decide +kernel

/-- What every step keeps holds of a RUNNING state, from which a step goes on. -/
theorem test_meets_the_invariants_running :
    running.LinesSound ∧ running.sq.Sound ∧ running.sq.ListSound ∧ running.sq.EnableSound ∧ running.tb.Sound ∧
      running.RingSound ∧ goesTo (step running) (fun _ => true) := by
  refine ⟨fun p => by cases p <;> decide +kernel, ?_, ?_, ?_, ?_, ?_, by decide +kernel⟩
  · simp only [Sequencer.Sound, running, runningWith]; decide
  · simp only [Sequencer.ListSound]; decide +kernel
  · simp only [Sequencer.EnableSound]; decide +kernel
  · simp only [TimeBase.Sound]
    exact ⟨by decide, by decide, by decide, by decide, by decide, by decide, by decide⟩
  · simp only [State.RingSound]; decide +kernel

theorem BreakerSim_cold_sound : BreakerSim.cold.Sound := by
  simp [BreakerSim.Sound, BreakerConfig.Sound, BreakerSim.cold, Breaker.cold]

theorem test_meets_the_invariants_breakers :
    idle.bs.Sound ∧ running.bs.Sound ∧ State.reset.bs.Sound ∧
      goesTo (exec (.eraseStore .cp 1) idle) (fun t => t.rs.records.isEmpty) :=
  ⟨BreakerSim_cold_sound, BreakerSim_cold_sound, BreakerSim_cold_sound, by decide +kernel⟩

theorem test_meets_the_invariants_blocks :
    idle.rs.Numbered ∧ idle.OutputsSound ∧ idle.st.Sound ∧ idle.ws.Sound := by
  simp only [Store.Numbered, State.OutputsSound, StateTable.Sound, Synth.Sound, Channel.Sound]
  exact ⟨by decide +kernel, by decide +kernel, fun k r h => by revert k; simp [idle, State.reset, State.cold, StateTable.cold],
    fun c => by revert c; simp [idle, State.reset, State.cold, Synth.cold, Channel.cold, Declaration.maximum]⟩

/-- A RUNNING run whose reserve just covers the records it may still commit. -/
def reserved : State := { running with rs := { running.rs with reserve := 856 } }

theorem test_meets_the_invariants_store :
    reserved.rs.Numbered ∧ reserved.SpaceSound ∧ goesTo (step reserved) (fun _ => true) ∧
      (reserved.rs.reader .cp).subscribed = true ∧
      reserved.rs.LowSound ∧
      goesTo (exec (.abort .ap 1) reserved) (fun t => t.rs.records.length == 2 && t.rs.reserve == 0) ∧
      goesTo (exec (.transactionEnd .cp ⟨[], 0⟩ true) reserved) (fun _ => true) ∧ CommandFrame.ofBytes [] = none := by
  simp only [Store.Numbered, State.SpaceSound, Store.LowSound]; decide +kernel

/-- RUNNING with START_UP held, a reserve, and the subscribed reader of the control port at a cursor. -/
def tight (reserve : Nat) (cursor : SeqNo) : State :=
  let s := { running with rs := { running.rs with reserve := reserve, cpReader := { cursor := cursor, subscribed := true } } }
  { s with rs := { s.rs with low := decide (s.rs.available < 4096) } }

def anEntry : RecordBody := .stateEntry 0 .start 1 0

/-- R147 to R150: 20 bytes find room at a spare of 20; at 19 the one record held goes if its reader has passed it, and else the new
one is dropped; an available space of 4,096 falls; TRAP takes the last 24 bytes of its reserve. -/
theorem test_meets_CommitsFindRoomOrAreDropped :
    (∀ s ∈ [tight 65492 1, tight 65493 2, tight 65493 1, tight 61416 1, reserved], s.SpaceSound ∧ s.rs.LowSound) ∧
    ((tight 65492 1).rs.roomWithout 0 = 20 ∧ (tight 65493 2).rs.roomWithout 0 = 19 ∧ 20 ≤ (tight 65493 2).rs.roomWithout 1) ∧
    (anEntry.length = 20 ∧ anEntry.code = 5 ∧ (RecordBody.trap 0 .emptySlot none 0).code = 4) ∧
    ((tight 65492 1).commit anEntry).rs.records.map Record.seq = [1, 2] ∧
    ((tight 65493 2).commit anEntry).rs.records.map Record.seq = [2] ∧
    (let t := (tight 65493 1).commit anEntry;
      t.rs.records.map Record.seq = [1] ∧ t.rs.nextSeq = 2 ∧ t.rs.runDropped = 1 ∧ t.rs.totalDropped = 1 ∧
        t.notices.cp.entries[8] = some { detail := .spaceLow true 19 1, count := 1 }) ∧
    ((tight 61416 1).commit anEntry).notices.cp.entries[8] = some { detail := .spaceLow false 4076 0, count := 1 } ∧
    (let t := reserved.commit (.trap 0 .emptySlot none 0);
      t.rs.reserve = 832 ∧ t.rs.available = reserved.rs.available ∧ t.rs.records.map Record.seq = [1, 2]) := by
  simp only [State.SpaceSound, Store.LowSound]; decide +kernel

theorem test_meets_CommitsFindRoomOrAreDropped_passed :
    (tight 65493 2).rs.RoomAfter 20 1 ∧ (tight 65492 1).rs.RoomAfter 20 0 ∧ ∀ gone, ¬(tight 65493 1).rs.RoomAfter 20 gone := by
  refine ⟨⟨by decide +kernel, fun r hr p hp => ?_, by decide +kernel⟩, ⟨by decide, fun r hr => ?_, by decide +kernel⟩, ?_⟩
  · cases p <;> revert hp <;> revert r <;> decide +kernel
  · cases hr
  · rintro (_ | gone) ⟨hn, hp, hr⟩
    · revert hr; decide +kernel
    · obtain rfl : gone = 0 := by
        have : (tight 65493 1).rs.records.length = 1 := by decide +kernel
        omega
      exact absurd (hp _ (List.mem_of_getElem? (i := 0) rfl) .cp (by decide +kernel)) (by decide +kernel)

/-- R146: each cursor at the end of its range, the oldest record held and the next sequence number. -/
theorem test_meets_the_invariants_cursors :
    let s := { idle with rs := { idle.rs with apReader := { cursor := idle.rs.nextSeq, subscribed := true } } }
    (∀ p ∈ [Port.cp, .ap], (s.rs.reader p).subscribed = true ∧
      ((s.rs.reader p).cursor - s.rs.oldest).toNat ≤ s.rs.records.length) ∧
    s.rs.CursorsSound ∧ goesTo (step s) (fun _ => true) :=
  ⟨by decide +kernel, fun p => by cases p <;> decide +kernel, by decide +kernel⟩

theorem test_meets_the_invariants_ports :
    (crowded idle).PortsSound ∧ goesTo (step (crowded idle)) (fun _ => true) := by
  refine ⟨fun p => ?_, by decide +kernel⟩
  cases p <;>
    exact ⟨by simp only [Transport.Sound]; decide, fun k e h => by revert h; revert e; revert k; decide +kernel⟩

theorem test_meets_OnlyTheseLeaveInhibited :
    inhibited.sq.runState = .inhibited ∧
      (∀ c ∈ [Instr.clearInhibit .cp 1 true, .restart .ap 1 true, .coldStart true],
        goesTo (exec c inhibited) (fun t => t.sq.runState == .idle)) := by decide +kernel

theorem test_meets_ARunKeepsItsOwnerAndItsOffset :
    (armed .command 0).sq.runState = .armed ∧ running.running = true ∧
      goesTo (exec (.start .cp 1) (armed .command 0)) (fun t => t.sq.runState == .armed) ∧
      goesTo (exec .referenceMark (disciplined .pps .acquire running)) (fun t => t.running) := by decide +kernel

theorem test_meets_ReadTimeAndReadBreakers : idle.Takes .cp ∧ running.Takes .ap := by
  simp only [State.Takes]; decide +kernel

theorem test_meets_TrimTimeAndSuspectCommands :
    (idle.Takes .cp ∧ running.Takes .cp ∧ inhibited.Takes .cp ∧ (disciplined .pps .acquire idle).Takes .cp ∧
      (disciplined .ring .holdover idle).Takes .cp) ∧
    (-2001 < (-2000 : Int) ∧ (2000 : Int) < 2001 ∧ (disciplined .pps .acquire idle).tb.disc ≠ .free ∧
      idle.tb.disc = .free) ∧
    (1000000 ≤ 1000000 ∧ 4294967296 ≤ 4294967296 ∧ 4294967295 < 4294967296 ∧ 999999 < 1000000) ∧
    (running.running = true ∧ (disciplined .pps .acquire idle).running = false ∧
      (disciplined .pps .acquire idle).tb.source = .pps ∧ (disciplined .ring .holdover idle).tb.source ≠ .pps ∧
      (disciplined .ring .holdover idle).tb.disc ≠ .free ∧ idle.sq.runState = .idle ∧
      inhibited.sq.runState = .inhibited) ∧
    (idle.tb.suspect = true ∧ { idle with tb := { idle.tb with suspect := false } }.tb.suspect = false) := by
  simp only [State.Takes]; decide +kernel

/-- R14, R57: SET TIME to 5.000000 s in an ARMED run meets AT_TIME at that instant and not one µs after it, alone or on the ring, and
moves a start that is pending to the new grid. -/
theorem test_meets_TrimTimeAndSuspectCommands_armed :
    (∀ x ∈ [(5000000, some quietEt), (5000001, none)],
      let s := armed (.atTime x.1) 0;
      s.Takes .cp ∧ s.sq.runState = .armed ∧ s.tb.disc = .free ∧ s.sq.startPending = none ∧
        goesTo (exec (.setTime .cp 1 5 0) s) (fun t => t.sq.startPending == x.2 && committed t == [9])) ∧
    (let s := onRing .up (armed (.atTime 5000000) 7);
      s.Takes .ap ∧ s.pr.proposal.role = .idle ∧
        goesTo (exec (.setTime .ap 1 5 0) s) (fun t => t.pr.proposal.role == .proposer && committed t == [9, 10])) ∧
    (let s := { armed .command 0 with sq := { (armed .command 0).sq with startPending := some 100 } };
      s.Takes .cp ∧ s.sq.startPending.isSome = true ∧
        goesTo (exec (.setTime .cp 1 5 40) s) (fun t => t.sq.startPending == some (quietEt + 60))) := by
  simp only [State.Takes]; decide +kernel

theorem test_meets_SetReferenceSelectsTheSource :
    idle.Takes .ap ∧ idle.tb.source = .noSource ∧ (disciplined .ring .holdover idle).Takes .ap ∧
      (disciplined .ring .holdover idle).tb.source ≠ .pps ∧ (disciplined .ring .holdover idle).tb.source = .ring := by
  simp only [State.Takes]; decide +kernel

/-- R16, R72: SET REFERENCE NONE in a LOCKED run armed with require-lock commits STATE, and then the interval's IMPAIRMENT. -/
theorem test_meets_SetReferenceSelectsTheSource_locked :
    let s := disciplined .pps .locked
      { running with sq := { running.sq with options := some { options .command 0 with requireLock := true } } };
    s.Takes .cp ∧ s.running = true ∧ s.requireLock = true ∧ s.tb.source ≠ .noSource ∧
      openInterval s.sq.impairments .timeQuality none = false ∧ s.sq.impairments.length < 32 ∧
      goesTo (exec (.setReference .cp 1 0) s) (fun t => t.tb.disc == .free && t.rs.records.length == 3) ∧
      goesTo (exec (.setReference .cp 1 2) (disciplined .pps .acquire idle)) (fun t => t.rs.records.length == 1) := by
  simp only [State.Takes]; decide +kernel

/-- `s` with the last mark and the watch at ET 0. -/
def marked (s : State) : State := { s with tb := { s.tb with mark := some (0, 0), watch := some 0 } }

theorem test_meets_ReferenceMarkIsDealtWith :
    (idle.pins.resetN = true ∧ idle.tb.source ≠ .pps) ∧
    ((marked (atEt 899999 idle)).tb.mark = some (0, 0) ∧ ((marked (atEt 899999 idle)).tb.et - 0).toNat < 900000) ∧
    (∀ s ∈ [disciplined .pps .locked (atEt 1000020 idle), disciplined .pps .acquire (atEt 1500000 idle),
        disciplined .pps .acquire (atEt 1499999 running)],
      s.pins.resetN = true ∧ s.tb.source = .pps ∧ s.tb.label = none ∧ s.tb.mark = none) ∧
    ((devMicros (disciplined .pps .locked (atEt 1000020 idle)).dev : Int) = 20 ∧ (20 : Int).natAbs ≤ 20 ∧
      (devMicros (disciplined .pps .acquire (atEt 1500000 idle)).dev : Int) - 1000000 = -500000 ∧
      (disciplined .pps .acquire (atEt 1500000 idle)).running = false ∧
      (devMicros (disciplined .pps .acquire (atEt 1499999 running)).dev : Int) = 499999 ∧
      (disciplined .pps .acquire (atEt 1499999 running)).running = true ∧ 50 < (-500000 : Int).natAbs) ∧
    (marked (disciplined .pps .locked (atEt 900000 idle))).tb.mark = some (0, 0) := by decide +kernel

theorem test_meets_ReferenceMarkIsDealtWith_further :
    (∀ x ∈ [(Discipline.locked, 1000021, (21 : Int)), (.acquire, 1000050, 50), (.acquire, 1999950, -50), (.free, 1000050, 50),
        (.free, 1000051, 51), (.holdover, 1999950, -50), (.holdover, 1999949, -51)],
      let s := disciplined .pps x.1 (atEt (BitVec.ofNat 48 x.2.1) idle);
      s.tb.source = .pps ∧ s.tb.disc = x.1 ∧ s.running = false ∧ s.tb.label = none ∧ s.tb.mark = none ∧
        ((devMicros s.dev : Int) = x.2.2 ∨ (devMicros s.dev : Int) - 1000000 = x.2.2)) ∧
    (idle.tb.good + 1 < 4 ∧ 4 ≤ { idle.tb with good := 3 }.good + 1) ∧
    (∀ d ∈ [Discipline.locked, .free, .holdover], (disciplined .pps d running).running = true) ∧
    (let s := disciplined .pps .locked (atEt 1000020 idle);
      { s with tb := { s.tb with label := some 4294967295 } }.tb.label = some 4294967295) ∧
    (let s := disciplined .ring .locked (onRing .up (atEt 1000020 idle));
      let b := { aBeacon 1000000 with source := .pps, tq := { disc := .locked, suspect := false } };
      let u := { s with pr := { s.pr with timeSource := some 1, members := upd s.pr.members 1 (some { beacon := b, seen := 0 }) } };
      b.dev % 1000000 = 0 ∧ u.tb.source = .ring ∧ u.pr.timeSource = some 1 ∧
        ((u.dev : Int) - ((1000000 + 20 * 1) % 4294967296000000 : Nat) - 0) % 1000000 = 0 ∧ u.tb.disc = .locked ∧
        goesTo (exec (.beaconReceived (fromNode1 (.beacon b)).bytes) u)
          (fun t => t.pr.timeSource == some 1 && t.tb.mark == some (1000020, 0))) := by decide +kernel

/-- A run armed with require-lock. -/
def lockRequired (s : State) : State :=
  { s with sq := { s.sq with options := some { options .command 0 with requireLock := true } } }

/-- R9, R11, R15, R16: a pending label waits in a run and is taken outside one, after the record of what the mark did. -/
theorem test_meets_ReferenceMarkIsDealtWith_label :
    let labelled (n : Nat) (s : State) : State := { s with tb := { s.tb with label := some n } }
    (∀ x ∈ [(labelled 7 (disciplined .pps .free (atEt 1000050 idle)), [9, 9]),
        (labelled 1 (disciplined .pps .holdover (atEt 1000050 idle)), [9]),
        (labelled 7 (disciplined .pps .acquire (atEt 1000051 running)), []),
        (disciplined .pps .acquire (atEt 1000051 idle), [9]),
        (lockRequired (disciplined .pps .locked (atEt 1000021 running)), [9, 3])],
      x.1.pins.resetN = true ∧ x.1.tb.source = .pps ∧ x.1.tb.mark = none ∧
        goesTo (exec .referenceMark x.1) (fun t => committed t == x.2)) ∧
    (¬(labelled 7 running).mayPropose ∧ ¬(armed .command 0).mayPropose ∧ (armed (.atTime 5) 7).mayPropose) := by
  simp only [State.mayPropose]; decide +kernel

/-- R8, R15, R163: the second beacon of the time source, over two links, in every discipline state; the part's own seconds, 1,
move to those of the beacon. -/
theorem test_meets_ReferenceMarkIsDealtWith_ring :
    let b := { aBeacon 9000000 with source := .pps, tq := { disc := .locked, suspect := false } }
    let m := { fromNode1 (.beacon b) with hop := 2 }
    ∀ x ∈ [(Discipline.locked, 1000060, [9]), (.free, 1000090, [9, 9]), (.acquire, 1000090, [9]), (.holdover, 999991, [9, 9])],
      let s := disciplined .ring x.1 (onRing .up (atEt (BitVec.ofNat 48 x.2.1) idle))
      let u := { s with pr := { s.pr with timeSource := some 1, members := upd s.pr.members 1 (some { beacon := b, seen := 0 }) } }
      u.pins.resetN = true ∧ u.pr.enable = true ∧ u.pins.light = true ∧ m.orig ≠ u.pr.node ∧ b.dev % 1000000 = 0 ∧ u.tb.source = .ring ∧ u.pr.timeSource = some 1 ∧ u.tb.mark = none ∧
        goesTo (exec (.beaconReceived m.bytes) u) (fun t =>
          t.pr.timeSource == some 1 && t.tb.mark.isSome && committed t == x.2.2 && devSeconds t.dev == if x.2.1 < 1000040 then 8 else 9) := by
  decide +kernel

/-- `s` with the holdover timer running since ET 0. -/
def heldOver (s : State) : State := { s with tb := { s.tb with holdover := some 0 } }

theorem test_meets_WatchAndHoldoverExpire :
    (let s := marked (disciplined .pps .acquire (atEt 1099999 idle));
      s.tb.source ≠ .noSource ∧ s.tb.watch = some 0 ∧ (s.tb.et - 0).toNat < 1100000) ∧
    (let s := marked (disciplined .pps .acquire (atEt 1100000 idle));
      s.tb.source ≠ .noSource ∧ s.tb.watch = some 0 ∧ 1100000 ≤ (s.tb.et - 0).toNat ∧ s.tb.disc = .acquire) ∧
    (let s := heldOver (disciplined .pps .holdover (atEt 299999999 idle));
      s.tb.disc = .holdover ∧ s.tb.holdover = some 0 ∧ (s.tb.et - 0).toNat < 300000000) ∧
    (let s := heldOver (disciplined .pps .holdover (atEt 300000000 idle));
      s.tb.disc = .holdover ∧ s.tb.holdover = some 0 ∧ 300000000 ≤ (s.tb.et - 0).toNat) := by decide +kernel

/-- R12, R16, R72: the watch that runs out in LOCKED commits STATE, ABSENT and, in a run with require-lock, IMPAIRMENT. -/
theorem test_meets_WatchAndHoldoverExpire_records :
    let s := marked (lockRequired (disciplined .pps .locked (atEt 1100000 running)))
    let absent (s : State) : State := { s with tb := { s.tb with absent := true } }
    s.tb.watch = some 0 ∧ s.tb.absent = false ∧
      goesTo (exec .markWatchExpiry s) (fun t => committed t == [9, 9, 3]) ∧
      goesTo (exec .markWatchExpiry (absent s)) (fun t => committed t == [9, 3]) ∧
      goesTo (exec .markWatchExpiry (marked (disciplined .pps .free (atEt 1100000 idle)))) (fun t => committed t == [9]) := by
  decide +kernel

theorem test_meets_InputAndOutputConfiguration :
    (idle.Takes .cp ∧ running.Takes .cp ∧ idle.sq.runState = .idle ∧ running.sq.runState ≠ .idle) ∧
    (20000 % 10 = 0 ∧ 20001 % 10 ≠ 0 ∧ 20000 < 20010 ∧ 255 < 256) ∧
    (goesTo (exec (.configureOutput .cp 1 0 (.aux 4 0)) idle) (fun t => (t.port .cp).queue.map Reply.code == [.badField]) ∧
      goesTo (exec (.configureOutput .cp 1 0 (.aux 3 1)) idle) (fun t => t.biu.funcs[(0 : Fin 8)] == .aux 3 true)) ∧
    (({ idle with biu := { idle.biu with funcs := upd idle.biu.funcs 7 (.aux 3 true) } }).biu.funcs[7] = .aux 3 true ∧
      ∀ m : Fin 8, m ≠ 0 → idle.biu.funcs[m] ≠ .aux 0 false) ∧
    (idle.running = false ∧ running.running = true ∧ running.activeBody = some theBody) := by
  simp only [State.Takes]; decide +kernel

theorem test_meets_InputSampleOpensAndCounts :
    ((atEt 10 idle).pins.resetN = true ∧ (atEt 10 idle).sampleNow = some 10 ∧
      (atEt 10 idle).biu.inputs[0].resample = true) ∧
    ((withInput { Input.cold with resample := false } (atEt 10 idle)).sampleNow = some 10 ∧
      (withInput { Input.cold with resample := false } (atEt 10 idle)).biu.inputs[0].cand = none) ∧
    (withInput { Input.cold with resample := false, cand := some candidate } (atEt 10 idle)).biu.inputs[0].cand
      = some candidate := by decide +kernel

/-- `s` at a sample that falls on ET 2,000. -/
def sampled (s : State) : State :=
  { atEt 2000 s with now := { (atEt 2000 s).now with sampled := some 2000 } }

theorem test_meets_DebounceAndChatterDecide :
    ((sampled idle).pins.resetN = true ∧ (sampled idle).now.sampled = some 2000) ∧
    (∀ x ∈ [{ Input.cold with raw := .active, cand := some candidate },
        { Input.cold with cand := some candidate }],
      (withInput x (sampled idle)).biu.inputs[0].cand = some candidate ∧
      (withInput x (sampled idle)).biu.inputs[0].cfg.tdb ≤ ((2000 : Tick) - candidate.lastChange).toNat) ∧
    ({ Input.cold with raw := .active, cand := some candidate }.raw ≠ Input.cold.stable) ∧
    (let s := withInput { Input.cold with chattering := true, lastEdge := some 0 }
        { idle with now := { idle.now with sampled := some 1000000 } };
      s.biu.inputs[0].chattering = true ∧ s.biu.inputs[0].lastEdge = some 0 ∧ s.biu.inputs[0].cand = none ∧
      1000000 ≤ ((1000000 : Tick) - 0).toNat) := by decide +kernel

def theWindow : MeasDef := { kind := .noOperate 1000, start := .runStart, stop := .inputLocal 0 .active, notify := 0 }

/-- RUNNING with the triggers given, input 0 about to be accepted as ACTIVE at a sample of ET 2,000. -/
def edging (triggers : List Trigger) (k : Breaker) : State :=
  let s := sampled (withInput { Input.cold with raw := .active, cand := some candidate }
    (runningWith (some (.steady { theBody with triggers := triggers })) none 0))
  { s with bs := { breakers := upd s.bs.breakers 0 k } }

def onEdge (mode : PeerMode) : Trigger := { cond := .input 0 .active, target := 1, mode := mode }

def moving (st : PoleState) (remembered : Option RememberedTrip) (failure : Option PendingFailure) : Pole where
  state := st
  pending := some 1
  late := false
  opTrip := some 1
  remembered := remembered
  failure := failure

/-- A breaker at a position, tripped and closed by the inputs given. -/
def aPolePosition (st : PoleState) (trips : List TripSource) (closes : List Source) : Breaker :=
  { Breaker.cold with
    cfg := { Breaker.cold.cfg with trips := trips, closes := closes }
    poles := Vector.replicate 3 { Pole.cold with state := st } }

theorem test_meets_DebounceAndChatterDecide_running :
    (let s := edging [{ cond := .advance, target := 0, mode := .wait }, onEdge .alone] Breaker.cold;
      s.running = true ∧ s.biu.inputs[0].cfg.limit = 0 ∧ s.biu.inputs[0].raw = .active ∧
        Level.active ≠ s.biu.inputs[0].stable ∧ s.Lowest (.input 0 .active) 1 (onEdge .alone) ∧ s.MayExit) ∧
    (∀ st ∈ [PoleState.closed, .closing],
      let s := edging [] (aPolePosition st [{ source := .localInput 0, poles := 5 }] []);
      (∀ j : Fin 4, s.bs.breakers[j].cfg.mode ≠ .feedback 0) ∧ s.bs.breakers[0].cfg.mode = .simulated ∧
        s.bs.breakers[0].cfg.trips.filter (fun y => y.source = .localInput 0) = [{ source := .localInput 0, poles := 5 }] ∧
        (∀ j : Fin 4, j ≠ 0 → s.bs.breakers[j].cfg.trips = []) ∧ (∀ j : Fin 4, s.bs.breakers[j].cfg.closes = []) ∧
        s.bs.breakers[0].cfg.fail = none ∧
        ∀ p : Fin 3, Tick.le (openingInstant s.bs.breakers[0] p candidate.tFirst.et) 2000 = false) ∧
    (∀ st ∈ [PoleState.closed, .opened],
      let s := edging [] (aPolePosition st [{ source := .localInput 1, poles := 7 }] [.localInput 0]);
      let u := { s with biu := { s.biu with inputs := upd s.biu.inputs 1 { s.biu.inputs[1] with published := .active } } };
      s.bs.breakers[0].cfg.closes.filter (fun y => y = .localInput 0) = [.localInput 0] ∧
        polesAllOpen s.bs.breakers[0].poles = decide (st = .opened) ∧ s.sourceActive (.localInput 1) = false ∧
        u.sourceActive (.localInput 1) = true ∧ s.Quiet ∧ s.biu.inputs[0].cfg.soe = false ∧
        ∀ p : Fin 3, Tick.le (closingInstant s.bs.breakers[0] p candidate.tFirst.et) 2000 = false) := by
  simp only [State.Lowest, State.MayExit, State.Quiet]
  refine ⟨⟨by decide +kernel, by decide +kernel, by decide +kernel, by decide +kernel, ⟨by decide +kernel, by decide +kernel,
    fun j hj x hx => ?_⟩, by decide +kernel⟩, by decide +kernel, by decide +kernel⟩
  obtain rfl : j = 0 := by omega
  revert hx; rintro ⟨⟩; decide

/-- R145: an input's own records come first, CHATTER_END and RESYNC with consecutive numbers (R28), although the level resolves a
measurement. -/
theorem test_meets_DebounceAndChatterDecide_soe :
    let timing := { Measurement.cold with
      definition := some { theWindow with kind := .time 0 5 0 }, live := .timing, start := some 0 }
    let timed (x : Input) : State := { withInput { x with cfg := { x.cfg with soe := true } } (atEt 1000000 running) with
      mu := { running.mu with meas := upd running.mu.meas 0 timing }, now := { running.now with sampled := some 1000000 } }
    let clearing := timed { Input.cold with chattering := true, lastEdge := some 0, stable := .active, raw := .active }
    let edge := timed { Input.cold with raw := .active, cand := some candidate }
    clearing.biu.inputs[0].cand = none ∧ clearing.biu.inputs[0].stable ≠ clearing.biu.inputs[0].published ∧
      goesTo (exec (.chatterClear 0) clearing) (fun t => committed t == [6, 6, 2]) ∧
      goesTo (exec (.debounceAccept 0) edge) (fun t => committed t == [6, 2]) := by decide +kernel

/-- R24, R26, R71: of edges at ET 1,999 and 2,000 with a limit of 1 the second makes the input CHATTERING, with CHATTER_START and, in
a run, the interval's IMPAIRMENT or, on a full list, the overflow mark; a CHATTERING input records nothing. -/
theorem test_meets_DebounceAndChatterDecide_chatter :
    let full := List.replicate 32 { kind := .saturation, subject := some 0, start := 0, stop := some 0 : Interval }
    let x := { Input.cold with
      raw := .active, cand := some candidate, edges := [1999], cfg := { Input.cold.cfg with limit := 1, soe := true } }
    let s (x : Input) (u : State) : State := sampled (withInput x u)
    (x.publishes = true ∧ (x.takeEdge 2000).publishes = false ∧ (x.takeEdge 2000).edges.length = 2) ∧
    ∀ y ∈ [(s x running, [6, 3], 1, false), (s x idle, [6], 0, false), (s { x with chattering := true } running, [], 0, false),
        (s x { running with sq := { running.sq with impairments := full } }, [6], 32, true)],
      y.1.pins.resetN = true ∧ y.1.now.sampled = some 2000 ∧ y.1.biu.inputs[0].cand = some candidate ∧
        goesTo (exec (.debounceAccept 0) y.1) (fun t =>
          committed t == y.2.1 && t.sq.impairments.length == y.2.2.1 && t.sq.overflow == y.2.2.2 &&
            t.biu.inputs[(0 : Fin 16)].chattering) := by decide +kernel

/-- `edging` with three poles in a state, an opening and a closing time, a fail programme and a mode; BI0 trips or closes. -/
def operating (st : PoleState) (trips : Bool) (time : Nat) (fail : Option (Nat × BitVec 3)) (mode : BreakerMode) : State :=
  let k := aPolePosition st (if trips then [{ source := .localInput 0, poles := 7 }] else [])
    (if trips then [] else [.localInput 0])
  edging [] { k with cfg := { k.cfg with opening := time, closing := time, fail := fail, mode := mode } }

/-- R107 to R112, R115, R116, R118: a trip and a close at ET 2,000 of an edge of ET 0, their instants to come, come or past, with a
programmed failure of pole B at trip 1 and in FEEDBACK mode. -/
theorem test_meets_DebounceAndChatterDecide_operations :
    (∀ x ∈ [(operating .closed true 2001 none .simulated, [PoleState.opening, .opening, .opening], [], false),
        (operating .closed true 2000 none .simulated, [.opened, .opened, .opened], [8, 8, 8, 8, 8, 8, 8], false),
        (operating .closed true 2000 (some (1, 2)) .simulated, [.opened, .closed, .opened], [8, 8, 8, 8], false),
        (operating .closed true 1999 (some (1, 2)) .simulated, [.opened, .closed, .opened], [8, 8, 8, 8, 8], true),
        (operating .closed true 2000 none (.feedback 3), [.opening, .opening, .opening], [], false),
        (operating .closed true 1999 none (.feedback 3), [.closed, .closed, .closed], [8, 8, 8], true),
        (operating .opened true 1999 none .simulated, [.opened, .opened, .opened], [], false),
        (operating .opened false 2001 none .simulated, [.closing, .closing, .closing], [], false),
        (operating .opened false 2000 none .simulated, [.closed, .closed, .closed], [8, 8, 8, 8], false),
        (operating .opened false 1999 none (.feedback 3), [.opened, .opened, .opened], [8, 8, 8, 8], true)],
      (∀ j : Fin 4, x.1.bs.breakers[j].cfg.mode ≠ .feedback 0) ∧ x.1.Quiet ∧ x.1.biu.inputs[0].cfg.soe = false ∧
        x.1.sourceActive (.localInput 0) = false ∧
        goesTo (exec (.debounceAccept 0) x.1) (fun t =>
          (t.bs.breakers[(0 : Fin 4)].poles.map Pole.state).toList == x.2.1 && committed t == x.2.2.1 &&
            (t.notices.cp.entries[(5 : Fin 11)]).isSome == x.2.2.2)) ∧
    (operating .opened false 1999 none .simulated).bs.RemembersSound := by
  simp only [State.Quiet, BreakerSim.RemembersSound]; decide +kernel

/-- R109, R110, R112: trip 1, counted for the CLOSED pole A, opens it and does nothing to pole B in CLOSING, on which the programme
fails it; pole C, not in the mask, remembers it, and so does B the next trip, and a trip that finds no pole made and has no number. -/
theorem test_trip_to_fail_leaves_a_closing_pole :
    let s := operating .closing true 2001 (some (1, 2)) .simulated
    let u := s.putPole 0 0 { Pole.cold with state := .closed }
    goesTo (exec (.debounceAccept 0) u) (fun t => (t.pole 0 0).state == .opening && (t.pole 0 0).opTrip == some 1 &&
      t.pole 0 1 == u.pole 0 1 && (t.pole 0 2).remembered == some { serial := 0, number := some 1 } &&
      ((t.onBreakers (fun x => x.takeTrip 0 7 0 2000)).pole 0 1).remembered == some { serial := 1, number := some 2 }) ∧
    goesTo (exec (.debounceAccept 0) s) (fun t => (t.pole 0 1).remembered == some { serial := 0, number := none }) := by
  decide +kernel

/-- R115, R116: an event of the feedback input parts the poles in OPENING and completes those in CLOSING, which then act on the trip
that they remember. -/
theorem test_meets_DebounceAndChatterDecide_feedback :
    let fed (st : PoleState) (l : Level) : State :=
      let k := aPolePosition st [] []
      withInput { Input.cold with raw := l, stable := l.opp, published := l.opp, cand := some candidate }
        (edging [] { k with cfg := { k.cfg with mode := .feedback 0 }
                            poles := Vector.replicate 3 (moving st (if st = .closing then some ⟨4, none⟩ else none) none) })
    (∀ x ∈ [(fed .opening .active, PoleState.opened, [8, 8, 8, 8, 8, 8, 8]), (fed .closing .inactive, .opening, [8, 8, 8, 8]),
        (fed .opening .inactive, .opening, []), (fed .closing .active, .closing, [])],
      x.1.bs.breakers[0].cfg.mode = .feedback 0 ∧ x.1.Quiet ∧
        goesTo (exec (.debounceAccept 0) x.1) (fun t =>
          (t.bs.breakers[(0 : Fin 4)].poles.map Pole.state).toList == List.replicate 3 x.2.1 && committed t == x.2.2)) ∧
    (fed .closing .inactive).bs.Sound := by
  intro fed
  have cfgs : ∀ k : Fin 4, (fed .closing .inactive).bs.breakers[k].cfg = Breaker.cold.cfg ∨
      (fed .closing .inactive).bs.breakers[k].cfg = { Breaker.cold.cfg with mode := .feedback 0 } := by decide +kernel
  refine ⟨by simp only [State.Quiet]; decide +kernel, fun k => ?_, fun j k p q c h => ?_⟩
  · rcases cfgs k with h | h <;> rw [h] <;> simp [BreakerConfig.Sound, Breaker.cold]
  · rcases cfgs j with g | g <;> rw [g] at h <;> simp [Breaker.cold] at h

theorem test_meets_WriteStateReplacesTheSlot :
    (running.Takes .ap ∧ running.running = true ∧ running.sq.owner ≠ some .ap) ∧
    (running.Takes .cp ∧ running.sq.owner = some .cp ∧ running.sq.active = some 0) ∧
    (idle.Takes .cp ∧ idle.sq.runState = .idle ∧ idle.running = false ∧ 64 ≤ 64 ∧ 63 < 64) ∧
    (∃ r, checkRecord aRecord = .ok r) ∧ checkRecord { aRecord with kind := 3 } = .error .kind ∧
    checkRecord { aRecord with setpoints := some (Vector.replicate 10 { aSetpoint with tau := some 5001 }) }
      = .error (.setpoint 0) ∧
    goesTo (exec (.writeState .cp 1 63 StateRecord.endState.asArg) idle) (fun t =>
      (t.port .cp).queue.map Reply.code == [.ok] && t.st.slots[(63 : Fin 64)] == some .endState) := by
  simp only [State.Takes]
  exact ⟨by decide +kernel, by decide +kernel, by decide +kernel, ⟨_, rfl⟩, rfl, by rfl, by decide +kernel⟩

def topped (mag : Nat) : LiveBody :=
  { theBody with setpoints := upd theBody.setpoints 9 { mag := mag, angle := -18000, freq := 1000000, tau := some 5000 } }

theorem topped_tau (c : Fin 10) : ((topped 300000).setpoints[c]).tau = none ∨ ((topped 300000).setpoints[c]).tau = some 5000 := by
  revert c; decide +kernel

/-- R40, R43: a RAMP_DONE trigger outside a RAMP record, a PEER trigger with a mode, and a fourth trigger are refused. -/
theorem test_meets_WriteStateReplacesTheSlot_refused :
    let position (a : RecordArg) : Option FieldPos := match checkRecord a with
      | .ok _ => none
      | .error e => some e
    (∀ x ∈ [([TriggerArg.mk .rampDone 1 0], 0), ([.mk .peer 1 0, .mk .peer 1 1], 1), (List.replicate 4 (.mk .peer 1 0), 3)],
      position { aRecord with triggers := x.1 } = some (.trigger x.2)) ∧
    position { aRecord with kind := 2 } = some .setpoints := by decide +kernel

/-- A record with a magnitude at its hardware maximum, which one above it is brought down to. -/
theorem test_meets_WriteStateReplacesTheSlot_admitted :
    (StateRecord.steady (topped 300000)).Sound ∧ (StateRecord.steady (topped 300000)).Admitted ∧
      (StateRecord.steady (topped 300000)).asArg = { (StateRecord.steady (topped 300001)).asArg with
        setpoints := (StateRecord.steady (topped 300001)).asArg.setpoints.map (fun v => v.mapFinIdx (fun c x _ =>
          { x with mag := min x.mag (if c < 6 then 320000 else 300000) })) } ∧
      StateRecord.endState.Sound ∧ StateRecord.endState.Admitted := by
  refine ⟨⟨fun c => ?_, ?_, by decide⟩, ?_, by decide +kernel, trivial, by simp [StateRecord.Admitted, StateRecord.live]⟩
  · refine ⟨by revert c; decide +kernel, by revert c; decide +kernel, by revert c; decide +kernel, fun t ht => ?_⟩
    rcases topped_tau c with h | h
    · exact absurd (h.symm.trans ht) (by simp)
    · cases h.symm.trans ht; decide
  · rintro l ⟨⟩; decide
  · rintro x ⟨⟩ tr htr
    simp [topped, theBody] at htr
    subst htr; simp

theorem test_meets_ClearStateAndReadState :
    (idle.Takes .ap ∧ idle.running = false ∧ (63 : Fin 64).val = 63) ∧
    (running.Takes .ap ∧ running.running = true ∧ running.sq.owner ≠ some .ap) ∧
    goesTo (exec (.writeState .cp 1 63 aRecord) idle) (fun u => u.pins.resetN && decide ((u.port .cp).queue.length < 4)) := by
  simp only [State.Takes]; decide +kernel

theorem test_meets_DeclarationsAndCalibration :
    idle.Takes .cp ∧ idle.Takes .ap ∧ running.Takes .ap ∧ idle.running = false ∧ running.running = true ∧
      ((if (5 : Fin 10).val < 6 then 320000 else 300000) < 320001 ∧
        300000 ≤ if (6 : Fin 10).val < 6 then 320000 else 300000) ∧
      ((20000 : Int).natAbs ≤ 20000 ∧ (-50 : Int).natAbs ≤ 50 ∧ (1000 : Int).natAbs ≤ 1000 ∧
        20000 < (-20001 : Int).natAbs) := by
  simp only [State.Takes]; decide +kernel

/-- R71, R77: FAULT in a run opens the channel's interval with its record; an open one, and a full list, take none. -/
theorem test_meets_DeclarationsAndCalibration_fault :
    let fault (l : List Interval) : State := { running with sq := { running.sq with impairments := l } }
    let i : Interval := { kind := .channelFault, subject := some 9, start := 0, stop := none }
    openInterval [i] .channelFault (some (9 : Fin 10).val) = true ∧ openInterval [i] .channelFault (some (8 : Fin 10).val) = false ∧
      32 ≤ (List.replicate 32 { i with subject := some 8 }).length ∧ (fault [i]).ws.channels[9].decl ≠ .fault ∧
      ∀ x ∈ [([], [3], 0, false), ([i], [], 0, false), (List.replicate 32 { i with stop := some 1 }, [], 0, true)],
        goesTo (exec (.declareChannel .ap 1 9 .fault) (fault x.1)) (fun t => committed t == x.2.1 && t.sq.overflow == x.2.2.2) := by
  decide +kernel

def aDelivery : SampleFrame := { aFrame with samples := Vector.replicate 10 0 }

theorem test_meets_FramesReachTheSampleLink :
    ((atEt 100 idle).pins.resetN = true ∧ (atEt 100 idle).boundaryNow = some 100 ∧ (atEt 100 idle).sq.runState = .idle ∧
      (atEt 100 idle).pr.proposal.tc = none) ∧
    (let s := { idle with ws := { idle.ws with linkQueue := [aDelivery], lastFrame := some 65535 } };
      s.ws.linkQueue = aDelivery :: []) ∧
    (let s := { idle with ws := { idle.ws with kept := some aDelivery } };
      s.pins.resetN = true ∧ s.ws.linkQueue = [] ∧ s.ws.kept.isSome = true) ∧
    (let s := { idle with ws := { idle.ws with linkQueue := [aDelivery], kept := some aDelivery, lastFrame := some 65535 } };
      goesTo (exec .slholdRelease s) (fun t => t.out.link.map (fun d => (d.number, d.held)) == [(0, false), (1, true)] &&
        t.ws.lastFrame == some 1)) ∧
    (let s := atEt 100 (armed .command 0);
      let u := { s with sq := { s.sq with startPending := some 200 } };
      s.boundaryNow = some 100 ∧ s.sq.runState = .armed ∧ s.sq.startPending = none ∧ u.sq.startPending = some 200 ∧
        Tick.le 200 100 = false) := by decide +kernel

/-- R98 and log 79: the release closes the open STREAM_SLIP and no other interval; a boundary that lowers the pin leaves it open and
the kept frame kept. -/
theorem test_meets_FramesReachTheSampleLink_slip :
    let slip : Interval := { kind := .streamSlip, subject := none, start := 0, stop := none }
    let others : List Interval := [{ slip with stop := some 1 }, { slip with kind := .timeQuality }]
    let s := { atEt 100 idle with
      pins := { idle.pins with slhold := true }, ws := { idle.ws with kept := some aDelivery }
      sq := { idle.sq with impairments := slip :: others } }
    goesTo (exec .slholdRelease s) (fun t =>
        t.sq.impairments == { slip with stop := some 100 } :: others && t.ws.kept.isNone) ∧
      goesTo (exec (.frameBoundary false) s) (fun t =>
        t.sq.impairments == slip :: others && t.ws.kept == some aDelivery && !t.pins.slhold) := by decide +kernel

theorem test_meets_ARunningFrameCarriesTheSamples :
    let s := atEt 900 running
    s.AtBoundary 900 ∧ s.running = true ∧ s.sq.streamEnable = true ∧ s.pr.proposal.tc = none ∧ s.sq.heldDue = none ∧
      s.sq.pendingTr = none ∧ s.limitDue 900 = none ∧ s.dwellDue 900 = none ∧ s.ws.channels[0].forced = false ∧
      s.ws.channels[0].intr = .conducting ∧ s.ws.channels[0].resume = false ∧ s.ws.channels[0].handover = none ∧
      (let u := { s with ws := { s.ws with channels := upd s.ws.channels 9 { s.ws.channels[9] with forced := true } } };
        u.AtBoundary 900 ∧ u.running = true ∧ u.ws.channels[9].forced = true) := by
  simp only [State.AtBoundary]; decide +kernel

/-- RUNNING at the boundary of ET 900 with channel 0 in an interruption state. -/
def interrupting (intr : Interruption) (resume : Bool) (tau : Option Nat) (uncutLast : Int) : State :=
  let s := atEt 900 (runningWith (some (.steady { theBody with
    setpoints := upd theBody.setpoints 0 { mag := 0, angle := 0, freq := 50000, tau := tau } })) none 0)
  { s with ws := { s.ws with channels := upd s.ws.channels 0 { s.ws.channels[0] with
      intr := intr, resume := resume, dc := 5, uncutLast := uncutLast } } }

theorem test_meets_ARunningFrameCarriesTheSamples_interrupted :
    (∀ x ∈ [(Interruption.interrupted, false), (.interrupted, true), (.watching 0 900, false), (.watching 198 899, false),
        (.watching 199 0, false)],
      let s := interrupting x.1 x.2 none 5;
      s.AtBoundary 900 ∧ s.limitDue 900 = none ∧ s.ws.channels[0].forced = false ∧ s.ws.channels[0].handover = none ∧
        s.ws.channels[0].wave + s.ws.channels[0].dc = 5 ∧ s.ws.channels[0].intr = x.1 ∧ s.ws.channels[0].resume = x.2) ∧
    (Tick.lt 900 900 = false ∧ Tick.lt 899 900 = true ∧ 198 + 1 < 200 ∧ 200 ≤ 199 + 1) ∧
    ((interrupting (.watching 0 0) false none (-1)).ws.channels[0].uncutLast < 0) ∧
    ((interrupting .interrupted true (some 400) 0).activeBody.map (fun b => (b.setpoints[0]).tau) = some (some 400)) := by
  simp only [State.AtBoundary]; decide +kernel

/-- R87, R93: a forced channel gives the offset alone, and is watched by the sample it would have given. -/
theorem test_meets_ARunningFrameCarriesTheSamples_forced :
    ∀ x ∈ [(Interruption.conducting, false, Interruption.conducting), (.watching 0 0, false, .watching 1 0),
        (.watching 199 0, false, .interrupted), (.interrupted, false, .interrupted), (.interrupted, true, .conducting)],
      let u := interrupting x.1 x.2.1 none 5
      let s := { u with ws := { u.ws with channels := upd u.ws.channels 0 { u.ws.channels[0] with forced := true, offset := 7 } } }
      s.AtBoundary 900 ∧ s.ws.channels[0].forced = true ∧ s.ws.channels[0].handover = none ∧
        goesTo (exec (.frameBoundary false) s) (fun t => t.ws.channels[(0 : Fin 10)].outLast == 7 &&
          t.ws.channels[(0 : Fin 10)].dc == 0 && t.ws.channels[(0 : Fin 10)].intr == x.2.2) := by
  simp only [State.AtBoundary]; decide +kernel

/-- R71, R97, R98 (log 77): with SLHOLD high the frame is kept; one of this run that it replaces opens STREAM_SLIP, one of an earlier
run or of IDLE does not, and a full list takes the overflow mark. -/
theorem test_meets_ARunningFrameCarriesTheSamples_held :
    let kept (f : Option SampleFrame) (l : List Interval) : State :=
      let s := atEt 900 running
      { s with ws := { s.ws with kept := f }, sq := { s.sq with impairments := l } }
    let lost := { aDelivery with runState := .running, run := 1 }
    let full := List.replicate 32 { kind := .saturation, subject := some 0, start := 0, stop := some 0 : Interval }
    ∀ x ∈ [(kept (some lost) [], [3], 1, false), (kept (some { lost with run := 65535 }) [], [], 1, false),
        (kept (some aDelivery) [], [], 1, false), (kept none [], [], 0, false), (kept (some lost) full, [], 1, true)],
      x.1.AtBoundary 900 ∧ x.1.running = true ∧ x.1.limitDue 900 = none ∧ x.1.dwellDue 900 = none ∧
        goesTo (exec (.frameBoundary true) x.1) (fun t => committed t == x.2.1 && t.ws.replaced == x.2.2.1 &&
          t.sq.overflow == x.2.2.2 && t.ws.linkQueue.isEmpty && t.ws.kept.isSome) := by
  simp only [State.AtBoundary]; decide +kernel

/-- At the dwell instant of a RAMP record whose one step is due. -/
def ramping : State :=
  let s := atEt 1000 (runningWith (some (.ramp { theBody with limit := none } theRamp)) none 0)
  { s with ws := { s.ws with ramp := some { steps := 0, next := 1000, ended := false } } }

theorem test_meets_RampStepMovesTheMaskedChannels :
    (ramping.AtBoundary 1000 ∧ ramping.dwellDue 1000 = some (theRamp, { steps := 0, next := 1000, ended := false }) ∧
      ramping.sq.pendingTr = none ∧ ramping.pr.holds = false ∧ ramping.sq.held = none ∧
      inSet theRamp.mask 0 = true ∧ inSet theRamp.mask 1 = false ∧ ramping.ws.channels[0].forced = false) ∧
    (proposing .pledged aProposal 0 none ramping).pr.holds = true ∧ ramping.sq.heldDue = none ∧
    (let s := { ramping with mu := { ramping.mu with meas := upd ramping.mu.meas 0 { ramping.mu.meas[0] with
        definition := some { theWindow with kind := .value 0 .frequency 49900 10 0 }, live := .waitingStart } } };
      s.mu.meas[0].definition.map MeasDef.kind = some (.value 0 .frequency 49900 10 0) ∧
        s.mu.meas[0].live = .waitingStart) := by
  simp only [State.AtBoundary]; decide +kernel

theorem test_meets_RampStepMovesTheMaskedChannels_rampDone :
    let tr : Trigger := { cond := .rampDone, target := 1, mode := .alone };
    let r : StateRecord := .ramp { theBody with limit := none, triggers := [onEdge .wait, tr] } theRamp;
    let s := { ramping with st := { slots := upd ramping.st.slots 0 (some r) } };
    s.AtBoundary 1000 ∧ (s.dwellDue 1000).isSome = true ∧ s.Lowest .rampDone 1 tr ∧ tr.mode = .alone ∧
      goesTo (exec .rampStep s) (fun t => t.ws.ramp.any RampProgress.ended && t.sq.pendingTr.isSome) := by
  simp only [State.AtBoundary, State.Lowest]
  refine ⟨by decide +kernel, by decide +kernel, ⟨by decide +kernel, trivial, fun j hj x hx => ?_⟩, by decide +kernel⟩
  obtain rfl : j = 0 := by omega
  revert hx; rintro ⟨⟩; decide

theorem test_meets_BreakerAndMeasurementConfiguration :
    (idle.Takes .cp ∧ idle.sq.runState = .idle ∧ running.Takes .ap ∧ running.sq.runState ≠ .idle) ∧
    (idle.checkBreaker { aBreaker with opening := 40000, closing := 80000 }).isSome = true ∧
    idle.checkBreaker { aBreaker with breaker := 4 } = none ∧
    (checkMeasurement { aMeasurement with index := 31, rel := some 1000 }).isSome = true ∧
    (checkMeasurement { aMeasurement with index := 0, kind := 3 }).isSome = true ∧
    checkMeasurement { aMeasurement with rel := some 1001 } = none := by
  simp only [State.Takes]; decide +kernel

theorem test_meets_BreakerAndMeasurementConfiguration_given :
    (let c : BreakerConfig := {
        trips := [{ source := .localInput 1, poles := 7 }], closes := [.remoteInput 2 3], opening := 40000, closing := 80000
        scatter := #v[0, 100, 200], mode := .simulated, fail := none, assoc := #v[[0], [1], [2]], shared := false };
      c.GivenBy aBreaker 0 (some 0) none ∧ idle.Admits 0 c (some 0) none) ∧
    (∀ kind ∈ [MeasKind.time 600000000 0 1000, .noOperate 1000, .noOperate 600000000, .value 9 .angle (-18000) 18000 0],
      MeasDef.Sound { theWindow with kind := kind }) := by
  refine ⟨⟨?_, ?_⟩, ?_⟩
  · simp only [BreakerConfig.GivenBy]; decide +kernel
  · refine ⟨?_, by decide, by decide, by decide +kernel⟩
    simp only [BreakerConfig.Sound]
    exact ⟨by decide, by decide, by decide, by decide, by decide, by simp, by simp⟩
  · simp only [MeasDef.Sound, theWindow]
    simp

theorem test_meets_PolesPartAndClose :
    (withPole .simulated (moving .opening none none) #v[[0], [], []] running).pins.resetN = true ∧
    (withPole .simulated (moving .opening none none) #v[[0], [], []] running).duePoles 0 .opening false = some (1, 1) ∧
    (0 : Fin 10) ∈ (withPole .simulated (moving .opening none none) #v[[0], [], []] running).bs.breakers[0].cfg.assoc[0] ∧
    (withPole .simulated (moving .opening none none) #v[[0], [], []] running).ws.channels[0].intr = .conducting ∧
    (withPole .simulated (moving .closing none none) #v[[0], [], []] running).duePoles 0 .closing false = some (1, 1) ∧
    (∀ p : Fin 3, inSet (1 : BitVec 3) p.val = true →
      (withPole .simulated (moving .closing none none) #v[[0], [], []] running).bs.breakers[0].poles[p].remembered = none) ∧
    State.forcedDue { running with ws := { running.ws with
        channels := upd running.ws.channels 9 { running.ws.channels[9] with handover := some (.forced 1) } } } 9
      = some 1 := by decide +kernel

/-- Breaker 0 with its three poles CLOSING, done at ET 1, remembering one trip; it has counted `trips`. -/
def reclosing (number : Option Nat) (trips : Nat) (fail : Option (Nat × BitVec 3)) : State :=
  running.putBreaker 0 { Breaker.cold with
    cfg := { Breaker.cold.cfg with fail := fail }, trips := trips
    poles := Vector.replicate 3 (moving .closing (some { serial := 4, number := number }) none) }

/-- R106, R109, R112: at its completion the first pole counts the trip that all remember; each opens again, or fails. -/
theorem test_meets_PolesPartAndClose_remembered :
    (∀ x ∈ [(reclosing none 65535 none, 65535, [PoleState.opening, .opening, .opening]),
        (reclosing (some 2) 2 none, 2, [.opening, .opening, .opening]),
        (reclosing none 2 (some (3, 2)), 3, [.opening, .closed, .opening])],
      x.1.duePoles 0 .closing false = some (1, 7) ∧
        goesTo (exec (.poleClosed 0) x.1) (fun t => t.bs.breakers[(0 : Fin 4)].trips == x.2.1 &&
          (t.bs.breakers[(0 : Fin 4)].poles.map Pole.state).toList == x.2.2 &&
          (t.bs.breakers[(0 : Fin 4)].poles.map Pole.remembered).toList == [none, none, none])) ∧
    (reclosing none 2 (some (3, 2))).bs.Sound := by
  have cfgs : ∀ k : Fin 4, (reclosing none 2 (some (3, 2))).bs.breakers[k].cfg = Breaker.cold.cfg ∨
      (reclosing none 2 (some (3, 2))).bs.breakers[k].cfg = { Breaker.cold.cfg with fail := some (3, 2) } := by decide +kernel
  refine ⟨by decide +kernel, fun k => ?_, fun j k p q c h => ?_⟩
  · rcases cfgs k with h | h <;> rw [h] <;> simp [BreakerConfig.Sound, Breaker.cold]
  · rcases cfgs j with g | g <;> rw [g] at h <;> simp [Breaker.cold] at h

theorem test_meets_the_invariants_remembered :
    (reclosing none 2 none).bs.RemembersSound ∧ (reclosing none 2 none).bs.breakers[0].poles[0].remembered ≠ none ∧
      goesTo (step { reclosing none 2 none with pending := [.poleClosed 0] }) (fun _ => true) := by
  simp only [BreakerSim.RemembersSound]; decide +kernel

/-- R145: POLE_OPEN of the last pole and BREAKER_OPEN have consecutive numbers, although POLE_OPEN resolves a measurement. -/
theorem test_pole_open_then_breaker_open :
    let opened := { Pole.cold with state := .opened }
    let s := running.putBreaker 0 { Breaker.cold with poles := #v[moving .opening none none, opened, opened] }
    let u := { s with mu := { s.mu with meas := upd s.mu.meas 0 { Measurement.cold with
      definition := some { theWindow with kind := .time 0 5 0, stop := .breaker 0 .poleOpen }, live := .timing
      start := some 0 } } }
    u.duePoles 0 .opening false = some (1, 1) ∧
      goesTo (exec (.poleParted 0) u) (fun t => committed t == [8, 8, 8, 2]) := by decide +kernel

/-- Pole A of breaker 0 in ARCING, the other two OPEN; channel 0 of it cut after 200 frames, channel 1 in the state given. -/
def arcing (other : Interruption) : State :=
  let s := withPole .simulated { Pole.cold with state := .arcing, opTrip := some 1 } #v[[0, 1], [], []] running
  let opened := { Pole.cold with state := .opened }
  let cut := { s.ws.channels[0] with intr := .interrupted, handover := some (.forced 1) }
  { s with
    bs := { breakers := upd s.bs.breakers 0 { s.bs.breakers[0] with
      poles := upd (upd s.bs.breakers[0].poles 1 opened) 2 opened } }
    ws := { s.ws with channels := upd (upd s.ws.channels 0 cut) 1 { s.ws.channels[1] with intr := other } } }

theorem test_meets_PolesPartAndClose_forced :
    (∀ other ∈ [Interruption.interrupted, .watching 3 0],
      (arcing other).forcedDue 0 = some 1 ∧ (arcing other).poleOf 0 = some (0, 0) ∧ (arcing other).poleOf 9 = none ∧
        (arcing other).Quiet ∧
        goesTo (exec (.forcedInterruption 0) (arcing other)) (fun t =>
          t.bs.breakers[0].poles[0].state == (if other = .interrupted then .opened else .arcing) &&
            t.rs.records.length == (if other = .interrupted then 4 else 2))) := by
  simp only [State.Quiet]; decide +kernel

/-- R105: pole B, done at the boundary of its own channel's forced interruption, waits for A's, and both then open in order. -/
theorem test_forced_interruptions_in_order :
    let s := withPole .simulated { Pole.cold with state := .arcing } #v[[1], [0], []] running
    let cut (x : Channel) : Channel := { x with intr := .interrupted, handover := some (.forced 1) }
    let u := { s with
      bs := { breakers := upd s.bs.breakers 0 { s.bs.breakers[0] with
        poles := upd s.bs.breakers[0].poles 1 { Pole.cold with state := .arcing } } }
      ws := { s.ws with channels := upd (upd s.ws.channels 0 (cut s.ws.channels[0])) 1 (cut s.ws.channels[1]) } }
    u.forcedDue 0 = none ∧ u.forcedDue 1 = some 1 ∧ u.Quiet ∧
      goesTo (exec (.forcedInterruption 1) u) (fun t =>
        t.bs.breakers[0].poles[0].state == .opened && t.bs.breakers[0].poles[1].state == .arcing &&
          t.forcedDue 0 == some 1 && t.rs.records.length == 3) := by
  simp only [State.Quiet]; decide +kernel

theorem test_meets_PolesFail :
    (withPole .simulated (moving .closed none (some { at' := 1, trip := 1, late := false })) #v[[], [], []]
        running).dueFailures 0 = some (1, 1) ∧
    (withPole (.feedback 3) (moving .opening none none) #v[[], [], []] running).duePoles 0 .opening true = some (1, 1) ∧
    (withPole (.feedback 3) (moving .closing (some { serial := 1, number := none }) none) #v[[], [], []]
        running).duePoles 0 .closing true = some (1, 1) ∧
    running.notices.routes[5] = .cp := by decide +kernel

theorem test_meets_WindowExpiryGivesTheResult :
    let s := { atEt 1000 running with mu := { running.mu with meas := upd running.mu.meas 0 { running.mu.meas[0] with
      definition := some theWindow, live := .timing, start := some 0, expiry := some 1000 } } }
    s.pins.resetN = true ∧ s.windowDue 0 = some 1000 ∧ s.mu.meas[0].definition = some theWindow ∧
      s.mu.meas[0].start = some 0 := by decide +kernel

/-- Measurement 0 with a kind, started and stopped by input 0 going ACTIVE, as that edge is accepted. -/
def measuring (kind : MeasKind) (live : LiveState) (occurrence : Nat) : State :=
  let s := edging [] Breaker.cold
  { s with mu := { s.mu with meas := upd s.mu.meas 0 { s.mu.meas[0] with
      definition := some { theWindow with kind := kind, start := .onEvent (.inputLocal 0 .active) occurrence }
      live := live, start := if live = .timing then some 0 else none, expiry := some 0 } } }

theorem test_meets_WindowExpiryGivesTheResult_edges :
    (∀ x ∈ [(MeasKind.time 0 5 0, LiveState.timing), (.value 0 .magnitude 0 5 0, .timing), (.noOperate 0, .timing),
        (.noOperate 5, .waitingStart)],
      let s := measuring x.1 x.2 2;
      s.pins.resetN = true ∧ s.now.sampled = some 2000 ∧ s.biu.inputs[0].cand = some candidate ∧ s.running = true ∧
        s.biu.inputs[0].raw = .active ∧ s.biu.inputs[0].stable ≠ .active ∧ s.mu.meas[0].live = x.2 ∧
        s.mu.meas[0].definition.map MeasDef.kind = some x.1 ∧ Tick.le candidate.tFirst.et 0 = true) ∧
    ((measuring (.time 0 5 0) .waitingStart 1).mu.meas[0].occ + 1 = 1) ∧
    (valueAt (measuring (.time 0 5 0) .timing 1).mu.meas[0].history true 0 = none) ∧
    goesTo (exec (.debounceAccept 0) (measuring (.time 0 5 0) .timing 1)) (fun t =>
      t.mu.meas[0].result.map (fun r => (r.outcome, r.value)) == some (.pass, some 0)) := by decide +kernel

def theStop : WaitingEvent := { event := .inputLocal 0 .active, ref := 1000, poor := false }

/-- `s` with measurement 0 in a live state, TIME of 0 with tolerance 5, between two references. -/
def timed (start : StartRef) (stop : MuEvent) (live : LiveState) (s : State) : State :=
  { s with mu := { s.mu with meas := upd s.mu.meas 0 { s.mu.meas[0] with
      definition := some { kind := .time 0 5 0, start := start, stop := stop, notify := 0 }
      live := live, start := if live = .timing then some 0 else none } } }

/-- What measurement 0 shows: its live state, count and start instant, and the outcome and value of its result. -/
def shows (t : State) : LiveState × Nat × Option Tick × Option (MeasOutcome × Option Int) :=
  (t.mu.meas[0].live, t.mu.meas[0].occ, t.mu.meas[0].start, t.mu.meas[0].result.map (fun r => (r.outcome, r.value)))

/-- R124, R126, R127: RUN_START at the boundary of ET 100, an entry at that of ET 1,000, and a remote input start a measurement, or
stop it. -/
theorem test_meets_WindowExpiryGivesTheResult_references :
    let entry : MuEvent := .stateEntry 1
    let remote : MuEvent := .inputRemote 1 15 .active
    let event (disc : Discipline) := fromNode1 (.event (.input 15 .active) 5 { disc := disc, suspect := false })
    let linked := onRing .up (atEt 7 running)
    let pending := { atEt 100 (armed .command 0) with
      sq := { (armed .command 0).sq with startPending := some 100 }
      st := { slots := upd idle.st.slots 0 (some (.steady theBody)) } }
    let leaving := atEt 1000 (runningWith (some (.steady theBody)) (some (.steady theBody)) 0)
    (pending.AtBoundary 100 ∧ pending.StartDue 100 .runStart [] ∧ pending.CanEnter 0 theBody ∧
      goesTo (exec .runStart (timed .runStart remote .waitingStart pending)) (fun t => shows t == (.timing, 0, some 100, none))) ∧
    (leaving.AtBoundary 1000 ∧ leaving.EntryDue 1000 .timeLimit 1 (.exit .timeLimit) [] ∧ leaving.CanEnter 1 theBody ∧
      leaving.mu.waiting = [] ∧ (∀ j : Fin 32, leaving.mu.meas[j].live ≠ .timing) ∧
      goesTo (exec .timeLimit (timed (.onEvent entry 1) remote .waitingStart leaving))
        (fun t => shows t == (.timing, 1, some 1000, none)) ∧
      goesTo (exec .timeLimit (timed (.onEvent entry 2) remote .waitingStart leaving))
        (fun t => shows t == (.waitingStart, 1, none, none)) ∧
      goesTo (exec .timeLimit (timed .runStart entry .timing leaving))
        (fun t => shows t == (.done, 0, some 0, some (.late, some 1000))) ∧
      goesTo (exec .timeLimit { leaving with mu := { leaving.mu with waiting := [theStop] } })
        (fun t => t.mu.waiting == [theStop, { event := entry, ref := 1000, poor := false }])) ∧
    ((∀ disc ∈ [Discipline.locked, .free], linked.Arrives (event disc)) ∧ linked.boundaryNow = none ∧
      goesTo (exec (.eventReceived (event .locked).bytes) (timed (.onEvent remote 1) remote .waitingStart linked))
        (fun t => shows t == (.timing, 1, some 5, none) && !t.mu.meas[0].startPoor) ∧
      goesTo (exec (.eventReceived (event .locked).bytes) (timed .runStart remote .timing linked))
        (fun t => shows t == (.done, 0, some 0, some (.pass, some 5))) ∧
      goesTo (exec (.eventReceived (event .free).bytes) (timed .runStart remote .timing linked))
        (fun t => shows t == (.done, 0, some 0, some (.voided, some 5)))) := by
  simp only [State.AtBoundary, State.CanEnter, State.Arrives, MsgBody.Carries, fromNode1]
  refine ⟨⟨by decide +kernel, .pending 100 (by decide +kernel) (by decide), by decide +kernel, by decide +kernel⟩,
    ⟨by decide +kernel, .limit 1 (by decide +kernel) rfl rfl (by decide +kernel), by decide +kernel, by decide +kernel,
      by decide +kernel, by decide +kernel, by decide +kernel, by decide +kernel, by decide +kernel⟩,
    by decide +kernel, by decide +kernel, by decide +kernel, by decide +kernel, by decide +kernel⟩

/-- R105, R124, R126: two poles of one instant meet a BREAKER reference twice, so that the second of them is its second occurrence and
one of three waits on; a TIMING measurement stops at the first. -/
theorem test_meets_WindowExpiryGivesTheResult_breakers :
    let failing : PendingFailure := { at' := 1, trip := 1, late := false }
    let two (mode : BreakerMode) (x : Pole) : State := running.putBreaker 0 { Breaker.cold with
      cfg := { Breaker.cold.cfg with mode := mode }, poles := #v[x, x, Pole.cold] }
    ∀ x ∈ [(Instr.poleParted 0, BreakerEventKind.poleParted, two .simulated (moving .opening none none)),
        (.poleClosed 0, .poleClosed, two .simulated (moving .closing none none)),
        (.failToOpen 0, .failToOpen, two .simulated { Pole.cold with failure := some failing }),
        (.openingDeadline 0, .failToOpen, two (.feedback 3) (moving .opening none none)),
        (.failToClose 0, .failToClose, two (.feedback 3) (moving .closing none none))],
      (x.2.2.boundaryNow = none ∧ (x.2.2.duePoles 0 .opening false == some (1, 3) || x.2.2.duePoles 0 .closing false == some (1, 3) ||
        x.2.2.dueFailures 0 == some (1, 3) || x.2.2.duePoles 0 .opening true == some (1, 3) ||
        x.2.2.duePoles 0 .closing true == some (1, 3)) = true) ∧
      goesTo (exec x.1 (timed (.onEvent (.breaker 0 x.2.1) 2) theStop.event .waitingStart x.2.2))
        (fun t => shows t == (.timing, 2, some 1, none)) ∧
      goesTo (exec x.1 (timed (.onEvent (.breaker 0 x.2.1) 3) theStop.event .waitingStart x.2.2))
        (fun t => shows t == (.waitingStart, 2, none, none)) ∧
      goesTo (exec x.1 (timed .runStart (.breaker 0 x.2.1) .timing x.2.2))
        (fun t => shows t == (.done, 0, some 0, some (.pass, some 1))) := by decide +kernel

/-- `s` with measurement 0 TIMING the frequency of channel 0, its history at 50.000 Hz, and the events that wait at MU. -/
def readingFrequency (waiting : List WaitingEvent) (s : State) : State :=
  { s with mu := { meas := upd s.mu.meas 0 { s.mu.meas[0] with
      definition := some { theWindow with kind := .value 0 .frequency 49900 10 0 }
      live := .timing, start := some 0, history := [(0, 50000)] }, waiting := waiting } }

/-- At the boundary of ET 1,000 with a transition due to a state of 49.900 Hz. -/
def entering : State :=
  let s := atEt 1000 (runningWith (some (.steady theBody)) (some (.steady { theBody with
    setpoints := Vector.replicate 10 { mag := 0, angle := 0, freq := 49900, tau := none } })) 0)
  { s with sq := { s.sq with pendingTr := some { target := 1, cause := .trigger 0, boundary := 1000 } } }

/-- R130: a stop on the boundary reads the value that the step, down to the lowest frequency, or the entry of the boundary leaves in
force. -/
theorem test_meets_WindowExpiryGivesTheResult_boundary :
    (∀ x ∈ [(Instr.rampStep, ramping, MeasOutcome.low, 5000), (.transition, entering, .pass, 49900)],
      let s := readingFrequency [theStop] x.2.1;
      s.boundaryNow = some 1000 ∧ s.sq.runState = .running ∧ s.mu.waiting = [theStop] ∧ s.commitDue 1000 = false ∧
        s.sq.heldDue = none ∧
        goesTo (exec x.1 s) (fun u => u.running && u.mu.meas[0].live == .timing && u.mu.meas[0].start == some 0 &&
          u.mu.meas[0].definition.map MeasDef.stop == some theStop.event && (u.limitDue 1000).isNone &&
          (u.dwellDue 1000).isNone) ∧
        goesTo (exec (.frameBoundary s.pins.slhold) s) (fun t =>
          t.mu.meas[0].result.map (fun r => (r.outcome, r.value)) == some (x.2.2.1, some x.2.2.2) && t.mu.waiting.isEmpty)) ∧
    ramping.sq.pendingTr = none ∧ ramping.limitDue 1000 = none := by decide +kernel

/-- Input 0 about to be accepted with t_first `t`, which stops measurement 0. -/
def readingEdge (t : Tick) : State :=
  readingFrequency [] (withInput { Input.cold with raw := .active, cand := some { candidate with tFirst := { et := t, dev := 0 } } }
    (edging [] Breaker.cold))

/-- An edge at the boundary of ET 2,000 waits there; one before it is taken at once. -/
theorem test_meets_WindowExpiryGivesTheResult_waits :
    ((readingEdge 2000).EventWaits (.inputLocal 0 .active) 2000 ∧
      goesTo (exec (.debounceAccept 0) (readingEdge 2000)) (fun t =>
        t.mu.waiting == [{ theStop with ref := 2000 }] && t.mu.meas[0].live == .timing)) ∧
    ((readingEdge 1999).EventPasses (.inputLocal 0 .active) 1999 ∧
      goesTo (exec (.debounceAccept 0) (readingEdge 1999)) (fun t =>
        t.mu.waiting.isEmpty && t.mu.meas[0].result.map MeasResult.value == some (some 50000))) := by
  have h2000 : (readingEdge 1999).boundaryNow = some 2000 := by decide +kernel
  refine ⟨⟨⟨2000, by decide +kernel, .inr ⟨by decide, 0, { theWindow with kind := .value 0 .frequency 49900 10 0 },
    ⟨by decide +kernel, by decide +kernel, ⟨_, _, _, _, _, rfl⟩⟩, rfl⟩⟩, by decide +kernel⟩, ⟨?_, ?_⟩, by decide +kernel⟩
  rotate_left
  · intro b hb h
    obtain rfl : b = 2000 := Option.some.inj (hb.symm.trans h2000)
    exact absurd h (by decide)
  intro b hb
  obtain rfl : b = 2000 := Option.some.inj (hb.symm.trans h2000)
  have only : ∀ j : Fin 32, (readingEdge 1999).mu.meas[j].definition ≠ none →
      (readingEdge 1999).mu.meas[j].definition = some { theWindow with kind := .value 0 .frequency 49900 10 0 } := by
    decide +kernel
  refine ⟨by decide +kernel, fun j d k e hd _ _ h => ?_⟩
  obtain rfl := Option.some.inj (hd.symm.trans (only j (by rw [hd]; simp)))
  cases h

/-- R130, R133, R134: what decides a result, in its order, with an interval that ends just where the judged one begins; and the
value in force just at a pair of the history, and before the first. -/
theorem test_meets_WindowExpiryGivesTheResult_decides :
    let touching : Interval := { kind := .chatter, subject := some 0, start := 0, stop := some 10 }
    let other : Interval := { kind := .chatter, subject := some 1, start := 0, stop := none }
    let s (l : List Interval) (overflow : Bool) : State :=
      { running with sq := { running.sq with impairments := l, overflow := overflow } }
    ((s [touching] true).decidingKind theWindow true 10 20 = some .overflow ∧
      (s [touching] false).decidingKind theWindow true 10 20 = some (.impairment .remoteTime) ∧
      (s [other, touching] false).decidingKind theWindow false 10 20 = some (.impairment .chatter) ∧
      (s [other, touching] false).decidingKind theWindow false 11 20 = none ∧
      theWindow.VoidedBy touching 10 20 ∧ ¬theWindow.VoidedBy other 10 20 ∧ ¬theWindow.VoidedBy touching 11 20) ∧
    (valueAt [(5, 7), (9, 8)] true 9 = some 8 ∧ valueAt [(5, 7), (9, 8)] true 8 = some 7 ∧ valueAt [(5, 7)] true 4 = none ∧
      valueAt [(5, 7)] false 4 = some 0) := by
  refine ⟨⟨by decide +kernel, by decide +kernel, by decide +kernel, by decide +kernel, ?_, ?_, ?_⟩, by decide +kernel⟩
  · exact ⟨⟨0, .active, .inl rfl, rfl⟩, by decide, by rintro t ⟨⟩; decide⟩
  · rintro ⟨⟨j, l, hn, hs⟩, -, -⟩
    simp [MeasDef.Names, theWindow] at hn
    simp [← hn.1] at hs
  · intro h
    exact absurd (h.2.2 10 rfl) (by decide)

/-- R53: an AT_TIME instant at and just after device time + 1,000 µs, and a PEER start without and with a joint id. -/
theorem test_meets_ArmCreatesTheRun_admits :
    let a := { anArm with mask := 0 }
    (∀ x ∈ [(StartArg.atTime 0 1001, 0, none), (.atTime 0 1002, 0, some (.atTime 1002)), (.peer, 0, none), (.peer, 7, some .peer)],
      (idle.checkArm { a with start := x.1, joint := x.2.1 }).map RunOptions.start = x.2.2) ∧
    (let o : RunOptions := { first := 0, start := .atTime 1002, nominal := 50000, requireLock := false, joint := 0
                             positions := Vector.replicate 4 false, mask := 0 };
      o.asArgs = { a with start := .atTime 0 1002 } ∧ idle.AdmitsRun o) := by
  refine ⟨by decide +kernel, by decide +kernel, by decide, by decide, ?_, by simp, by decide +kernel⟩
  rintro d ⟨⟩; decide +kernel

theorem test_meets_ArmCreatesTheRun :
    let s := { idle with mu := { idle.mu with meas := upd idle.mu.meas 0 { idle.mu.meas[0] with definition := some theWindow } } }
    (inhibited.Takes .cp ∧ inhibited.sq.runState = .inhibited ∧ running.Takes .ap ∧ running.sq.runState ≠ .inhibited ∧
      running.sq.runState ≠ .idle) ∧
    (idle.Takes .cp ∧ idle.sq.runState = .idle ∧ idle.checkArm anArm = none) ∧
    (s.Takes .ap ∧ (s.checkArm anArm).isSome = true ∧ (s.checkArm { anArm with nominal := 4999 }) = none ∧
      (s.checkArm { anArm with lock := 1 }).isSome = true ∧ s.tb.disc ≠ .locked ∧
      (s.checkArm { anArm with joint := 65535 }).isSome = true ∧ s.pr.ring ≠ .up ∧ 904 + 40 * 1 ≤ s.rs.available) ∧
    ((s.checkArm { anArm with start := .input 15 1 }).map RunOptions.start = some (.input 15 .active)) ∧
    (let full := { s with rs := { s.rs with reserve := 65536 } }; full.rs.available < 904 + 40 * 1) := by
  simp only [State.Takes]; decide +kernel

/-- R125, R174: ARM clears the counts, instants and histories of every measurement, and the remote levels. -/
theorem test_meets_ArmCreatesTheRun_clears :
    let left : Measurement := { Measurement.cold with
      definition := some theWindow, live := .done, occ := 3, start := some 1, stop := some 2, expiry := some 3, history := [(1, 2)]
      truncated := true, startPoor := true }
    let s := { idle with
      mu := { meas := Vector.replicate 32 left, waiting := [theStop] }
      pr := { idle.pr with levels := Vector.replicate 4 (Vector.replicate 16 (some .active)) } }
    s.Takes .cp ∧ (s.checkArm anArm).isSome = true ∧ goesTo (exec (.arm .cp 1 anArm) s) (fun t =>
      t.mu.meas[0] == { Measurement.cold with definition := some theWindow, live := .waitingStart } &&
        t.mu.meas[31] == { Measurement.cold with definition := some theWindow } && t.mu.waiting.isEmpty &&
        t.pr == idle.pr) := by
  simp only [State.Takes]; decide +kernel

theorem test_meets_DisarmStartAndAdvance :
    ((armed .command 0).Takes .cp ∧ (armed .command 0).Takes .ap ∧ (armed .command 0).sq.runState = .armed ∧
      (armed .command 0).sq.owner = some .cp ∧ (armed .command 0).sq.owner ≠ some .ap ∧
      (armed .command 0).pr.proposal.role = .idle ∧ (armed .command 0).sq.options = some (options .command 0) ∧
      (armed .command 0).sq.startPending = none) ∧
    ((armed .peer 7).sq.options = some (options .peer 7) ∧ (options .peer 7).start ≠ .command ∧
      (armed .command 7).sq.options = some (options .command 7) ∧ (options .command 7).joint ≠ 0) ∧
    (running.Takes .cp ∧ running.sq.runState = .running ∧ running.sq.owner = some .cp ∧
      running.advanceTrigger = some ({ cond := .advance, target := 1, mode := .alone }, 0) ∧
      running.sq.pendingTr = none ∧ running.sq.heldDue = none ∧ running.pr.holds = false) ∧
    ((proposing .pledged aProposal 0 none running).pr.holds = true ∧
      (proposing .pledged aProposal 0 none running).advanceTrigger.isSome = true) ∧
    State.advanceTrigger { running with sq := { running.sq with
      pendingTr := some { target := 1, cause := .timeLimit, boundary := 100 } } } ≠ none := by
  simp only [State.Takes]; decide +kernel

theorem test_meets_DisarmStartAndAdvance_further :
    (∀ r ∈ [Role.proposer, .pledged], let s := proposing r aProposal 2 none (armed .command 7);
      s.Takes .cp ∧ s.sq.runState = .armed ∧ s.sq.owner = some .cp ∧ s.pr.proposal.role = r) ∧
    (∀ tr ∈ (edging [onEdge .alone] Breaker.cold).triggers, tr.cond ≠ .advance) ∧
    (∀ m ∈ [PeerMode.alone, .wait, .preempt],
      let tr : Trigger := { cond := .advance, target := 1, mode := m };
      let s := edging [tr, { tr with target := 2 }] Breaker.cold;
      s.Takes .cp ∧ s.Lowest .advance 0 tr ∧ s.MayExit) ∧
    (let s := proposing .pledged aProposal 0 none running;
      let u := { s with sq := { s.sq with held := some { cause := .timeLimit, at' := 0 } } };
      s.sq.held = none ∧ s.pr.holds = true ∧ u.pr.holds = true ∧ u.sq.held.isSome = true) ∧
    { running with sq := { running.sq with heldDue := some 100 } }.sq.heldDue.isSome = true := by
  simp only [State.Takes, State.Lowest, State.MayExit]
  refine ⟨by decide +kernel, by decide +kernel, ?_, by decide +kernel, rfl⟩
  intro m hm
  exact ⟨by revert m; decide +kernel, ⟨by rfl, trivial, fun j hj => absurd hj (by omega)⟩, by rfl, by rfl, by rfl⟩

theorem test_meets_AbortAndTheClose :
    idle.Takes .cp ∧ idle.sq.runState = .idle ∧ running.Takes .ap ∧ running.sq.runState = .running ∧
      (armed .command 0).Takes .ap ∧ (armed .command 0).sq.runState = .armed ∧
      (let s := { running with mu := { running.mu with meas := upd running.mu.meas 0 { running.mu.meas[0] with
          definition := some theWindow, live := .waitingStart } } };
        s.mu.meas[0].definition.isSome = true ∧ s.mu.meas[0].live = .waitingStart ∧ s.enabled 0 = true ∧
        ∀ c ∈ [Instr.abort .ap 1, .emergencyStop .cp 1, .estopNFall],
          goesTo (exec c s) (fun t => t.mu.meas[0].result.map MeasResult.outcome == some .notRun)) := by
  simp only [State.Takes]; decide +kernel

/-- R135: a stop that waited for its boundary came before the close, and reads the value in force as it stands. -/
theorem test_meets_AClosedRunLeavesItsReport_waits :
    let s := readingFrequency [theStop] entering;
    s.pins.resetN = true ∧ s.sq.runState = .running ∧ s.mu.meas[0].live = .timing ∧ s.mu.meas[0].start = some 0 ∧
      goesTo (exec (.abort .cp 1) s) (fun t =>
        t.mu.meas[0].result.map (fun r => (r.outcome, r.value)) == some (.high, some 50000)) := by decide +kernel

theorem test_meets_EmergencyStopInhibits :
    running.pins.resetN = true ∧ (running.port .ap).queue.length < 4 ∧ running.notices.routes[0] = .both ∧
      inhibited.sq.runState = .inhibited ∧ (inhibited.port .cp).queue.length < 4 ∧ idle.sq.runState ≠ .inhibited := by
  decide +kernel

theorem test_meets_StartsAreMetAndMade :
    (let s := armed (.atTime 1) 0;
      s.sq.runState = .armed ∧ s.sq.options = some (options (.atTime 1) 0) ∧ s.sq.startPending = none ∧ 1 ≤ s.dev ∧
        (options (.atTime 1) 0).joint = 0) ∧
    (armed (.atTime 2) 0).dev < 2 ∧
    (let s := atEt 100 (armed .command 0);
      let u := { s with sq := { s.sq with startPending := some 100 }, st := { slots := upd s.st.slots 0 (some (.steady theBody)) } };
      u.AtBoundary 100 ∧ u.sq.options = some (options .command 0) ∧ Tick.le 100 100 = true ∧
        u.CanEnter (options .command 0).first theBody) := by
  simp only [State.AtBoundary, State.CanEnter]; decide +kernel

theorem test_meets_StartsAreMetAndMade_joint :
    (let s := onRing .up (armed (.atTime 1) 7);
      s.sq.options = some (options (.atTime 1) 7) ∧ 1 ≤ s.dev ∧ s.pr.proposal.role = .idle ∧
        (proposing .pledged aProposal 0 none s).pr.proposal.role ≠ .idle) ∧
    (∀ j ∈ [0, 7], let s := sampled (withInput { Input.cold with raw := .active, cand := some candidate }
        (armed (.input 0 .active) j));
      s.now.sampled = some 2000 ∧ s.sq.options = some (options (.input 0 .active) j) ∧
        Level.active ≠ s.biu.inputs[0].stable ∧ s.sq.startPending = none ∧ s.pr.proposal.role = .idle) ∧
    (let s := proposing .pledged aProposal 0 none (onRing .up (atEt 100 (armed .command 7)));
      let u := { s with
        pr := { s.pr with proposal := { s.pr.proposal with tc := some 100 } }
        st := { slots := upd s.st.slots 0 (some (.steady theBody)) } };
      u.AtBoundary 100 ∧ u.commitDue 100 = true ∧ u.pr.proposal.prop = some aProposal ∧ aProposal.target = none ∧
        u.CanEnter (options .command 7).first theBody) := by
  simp only [State.AtBoundary, State.CanEnter]; decide +kernel

/-- R59, R65, R72, R81, R84: a start commits RUN_OPEN, the IMPAIRMENT of a CHATTERING input and STATE_ENTRY, after COMMITTED where a
START was committed; DC continuity starts from a sample of 0, and from none in a channel of an OPEN pole. -/
theorem test_meets_StartsAreMetAndMade_records :
    let b : LiveBody := { theBody with
      setpoints := upd theBody.setpoints 0 { mag := 10000, angle := 0, freq := 50000, tau := some 400 } }
    let s := atEt 100 (armed .command 7)
    let ready (x : Channel) : Channel := { x with decl := .ready 320000, acc := 5, sLast := 9 }
    let u := { s with
      biu := { s.biu with inputs := upd s.biu.inputs 3 { s.biu.inputs[3] with chattering := true } }
      ws := { s.ws with channels := s.ws.channels.map ready }
      sq := { s.sq with startPending := some 100 }, st := { slots := upd s.st.slots 0 (some (.steady b)) } }
    let opened := u.putBreaker 0 { Breaker.cold with
      cfg := { Breaker.cold.cfg with assoc := #v[[0], [], []] }, poles := #v[{ Pole.cold with state := .opened }, Pole.cold, Pole.cold] }
    let joint := proposing .pledged aProposal 0 none u
    let sent := { joint with pr := { joint.pr with proposal := { joint.pr.proposal with tc := some 100 } } }
    u.CanEnter 0 b ∧ u.StartDue 100 .runStart [] ∧
      sent.StartDue 100 .commitEntry [.peerEvent (.committed aProposal false 100 100)] ∧
      goesTo (exec .runStart u) (fun t => committed t == [0, 3, 5] && t.ws.channels[0].kq == 16735325 &&
        t.ws.channels[0].dc == -(acTerm t.ws.channels[0].amp t.ws.channels[0].phi t.ws.ref) && t.ws.channels[0].dc != 0) ∧
      goesTo (exec .runStart opened) (fun t => t.ws.channels[0].dc == 0 && t.ws.channels[0].intr == .interrupted) ∧
      goesTo (exec .commitEntry sent) (fun t => committed t == [10, 0, 3, 5]) := by
  simp only [State.CanEnter]
  refine ⟨by decide +kernel, .pending 100 (by decide +kernel) (by decide), .commits aProposal 100 rfl rfl (by decide +kernel) rfl,
    by decide +kernel, by decide +kernel, by decide +kernel⟩

/-- RUNNING at the boundary of ET 1,000, the time limit of the active slot, with the record given in slot 1. -/
def leaving (r : Option StateRecord) : State := atEt 1000 (runningWith (some (.steady theBody)) r 0)

theorem test_meets_EntriesTrapsAndEnds :
    ((leaving (some (.steady theBody))).AtBoundary 1000 ∧ (leaving none).sq.runState = .running ∧
      (leaving none).limitDue 1000 = some 1 ∧ (leaving none).sq.pendingTr = none ∧ (leaving none).sq.heldDue = none ∧
      (leaving none).pr.holds = false) ∧
    ((leaving (some (.steady theBody))).CanEnter 1 theBody ∧ (leaving none).entryCheck 1 = some (.emptySlot, none) ∧
      (leaving (some .endState)).st.slots[1] = some .endState) ∧
    (let x : PendingTransition := { target := 1, cause := .trigger 0, boundary := 1000 };
      let s := { leaving none with sq := { (leaving none).sq with pendingTr := some x } };
      s.AtBoundary 1000 ∧ s.sq.pendingTr = some x ∧ x.target = 1 ∧ Tick.le x.boundary 1000 = true) ∧
    (let s := { leaving none with sq := { (leaving none).sq with
        held := some { cause := .trigger 0, at' := 900 }, heldDue := some 1000 } };
      s.AtBoundary 1000 ∧ s.sq.heldDue = some 1000 ∧
        s.triggers[0]? = some { cond := .advance, target := 1, mode := .alone }) ∧
    (let s := proposing .proposer { aProposal with target := some 1 } 0 none (leaving none);
      let u := { s with pr := { s.pr with proposal := { s.pr.proposal with tc := some 1000 } } };
      u.AtBoundary 1000 ∧ u.commitDue 1000 = true ∧ u.pr.proposal.prop = some { aProposal with target := some 1 }) := by
  simp only [State.AtBoundary, State.CanEnter]; decide +kernel

/-- R145: what waits at MU is taken before the records of a trap, of an END record and of the 65,535th entry, so that those and the
RUN_CLOSE are consecutive. -/
theorem test_closing_records_are_consecutive :
    let last (s : State) : State := { s with sq := { s.sq with count := 65534 } }
    ∀ x ∈ [(leaving none, [2, 4, 1]), (leaving (some .endState), [2, 5, 1]), (last (leaving (some (.steady theBody))), [2, 5, 1])],
      let s := readingFrequency [theStop] x.1
      s.AtBoundary 1000 ∧ s.mu.waiting = [theStop] ∧ goesTo (exec .timeLimit s) (fun t => committed t == x.2) := by
  simp only [State.AtBoundary]; decide +kernel

/-- R134, R135: at COMPLETED a NO_OPERATE measurement in its window is PASS, or VOID by a condition of its stop input that stands. -/
theorem test_meets_EntriesTrapsAndEnds_completed :
    ∀ x ∈ [([], MeasOutcome.pass), ([{ kind := .chatter, subject := some 0, start := 500, stop := none : Interval }], .voided),
        ([{ kind := .chatter, subject := some 1, start := 500, stop := none }], .pass)],
      let u := leaving (some .endState)
      let s := { u with
        sq := { u.sq with impairments := x.1 }
        mu := { u.mu with meas := upd u.mu.meas 0 { u.mu.meas[0] with
          definition := some theWindow, live := .timing, start := some 0, expiry := some 1000 } } }
      s.AtBoundary 1000 ∧ s.limitDue 1000 = some 1 ∧ theWindow.stop ≠ .stateEntry 1 ∧ s.mu.waiting = [] ∧
        s.mu.meas[0].definition = some theWindow ∧ s.mu.meas[0].start = some 0 ∧
        goesTo (exec .timeLimit s) (fun t => t.sq.lastClose == some .completed &&
          t.mu.meas[(0 : Fin 32)].result.map (fun r => (r.outcome, r.stop)) == some (x.2, none)) := by
  simp only [State.AtBoundary]; decide +kernel

/-- R65, R83, R84, R90, R168: an entry, by the time limit or a held time limit, anchors or runs on, starts the DC term from the last
sample but in a forced channel, gives a ramp its first dwell instant and commits STATE_ENTRY. -/
theorem test_meets_EntriesTrapsAndEnds_entered :
    let b (anchor : Bool) : LiveBody := { theBody with
      anchor := anchor, limit := none, setpoints := Vector.replicate 10 { mag := 0, angle := 0, freq := 50000, tau := some 400 } }
    let s (anchor : Bool) : State :=
      let u := leaving (some (.ramp (b anchor) theRamp))
      { u with ws := { u.ws with
        ref := 70, nominalInc := 4
        channels := upd (u.ws.channels.map (fun x => { x with acc := 5, sLast := 9 })) 1
          { u.ws.channels[1] with acc := 5, sLast := 9, forced := true } } }
    let held (anchor : Bool) : State := { s anchor with sq := { (s anchor).sq with
      held := some { cause := .timeLimit, at' := 900 }, heldDue := some 1000 } }
    ∀ a : Bool, (s a).CanEnter 1 (b a) ∧ (s a).EntryDue 1000 .timeLimit 1 (.exit .timeLimit) [] ∧
      (held a).EntryDue 1000 .heldTriggerTaken 1 (.exit .timeLimit) [] ∧
      ∀ x ∈ [(Instr.timeLimit, s a), (.heldTriggerTaken, held a)],
        goesTo (exec x.1 x.2) (fun t => committed t == [5] && t.sq.active == some 1 && t.ws.ref == 74 &&
          t.ws.channels[0].acc == (if a then 74 else 5) && t.ws.channels[0].dc == 9 && t.ws.channels[1].dc == 0 &&
          t.ws.ramp == some { steps := 0, next := 2000, ended := false }) := by
  simp only [State.CanEnter]
  intro a
  refine ⟨by revert a; decide +kernel, .limit 1 (by revert a; decide +kernel) rfl rfl (by revert a; decide +kernel),
    .heldLimit 1000 _ theBody 1000 1 rfl (by decide) rfl rfl (by revert a; decide +kernel) rfl, by revert a; decide +kernel⟩

/-- Of a record with a magnitude on channel 0: an undeclared channel is unavailable, one declared below it is out of range. -/
theorem test_meets_EntriesTrapsAndEnds_checks :
    let b : LiveBody := { theBody with setpoints := upd theBody.setpoints 0 { mag := 2, angle := 0, freq := 50000, tau := none } }
    let s := leaving (some (.steady b))
    let u := { s with ws := { s.ws with channels := upd s.ws.channels 0 { s.ws.channels[0] with decl := .ready 1 } } }
    (s.st.slots[(1 : Fin 64)] = some (.steady b) ∧ s.FailsChannel b none 0 .channelUnavailable ∧
      u.FailsChannel b none 0 .range ∧ s.entryCheck 1 = some (.channelUnavailable, some 0) ∧
      u.entryCheck 1 = some (.range, some 0)) ∧
    (∀ c x, ¬(leaving none).FailsChannel theBody none c x) ∧ (leaving none).joint = 0 ∧
    (onEdge .wait).NeedsRing ∧ ¬(onEdge .alone).NeedsRing ∧
    (leaving (some (.steady { theBody with triggers := [onEdge .alone, onEdge .wait] }))).entryCheck 1 =
      some (.noRing, some 1) := by
  refine ⟨⟨by decide +kernel, .inl ⟨.inr fun m h => ?_, .inl (by decide +kernel), rfl⟩, .inr ⟨?_, ⟨1, by decide +kernel⟩, rfl⟩,
    by decide +kernel, by decide +kernel⟩, ?_, by decide +kernel, .inl (by decide), ?_, by decide +kernel⟩
  · revert h; rintro ⟨⟩
  · rintro ⟨h | h, -⟩
    · revert h; rintro ⟨⟩
    · exact h 1 (by decide +kernel)
  · have h0 (c : Fin 10) : (leaving none).ws.channels[c].decl = .undeclared := by revert c; decide +kernel
    rintro c x (⟨-, h | ⟨r, ⟨⟩, -⟩, -⟩ | ⟨-, ⟨m, h, -⟩, -⟩)
    · revert h; revert c; decide +kernel
    · rw [h0] at h; cases h
  · rintro (h | h | ⟨n, i, l, ⟨⟩⟩) <;> revert h <;> decide

/-- In a joint run, at the boundary of a pending transition to slot 1, whose record has a PEER trigger. -/
def linked : State :=
  let s := atEt 1000 (runningWith (some (.steady theBody))
    (some (.steady { theBody with triggers := [{ cond := .peer, target := 2, mode := .alone }] })) 7)
  { onRing .up s with sq := { s.sq with
    pendingTr := some { target := 1, cause := .trigger 0, boundary := 1000 } } }

theorem test_meets_EntriesTrapsAndEnds_joint :
    (∀ m ∈ [PeerMode.wait, .preempt],
      let x : Proposal := { aProposal with target := some 5, mode := m };
      let s := { linked with pr := { linked.pr with waiting := some x } };
      s.AtBoundary 1000 ∧ s.joint = 7 ∧ (s.st.slots[(1 : Fin 64)]).isSome = true ∧ s.entryCheck 1 = none ∧
        goesTo (exec .transition s) (fun t => t.pr.waiting.isNone && t.pr.proposal.role == .pledged)) ∧
    (let s := proposing .deferred { aProposal with target := some 5, mode := .wait } 0 none linked;
      s.AtBoundary 1000 ∧ s.pr.waiting = none ∧ s.pr.proposal.role = .deferred ∧
        goesTo (exec .transition s) (fun t => t.pr.proposal.role == .pledged)) ∧
    (let x : Proposal := { aProposal with proposer := 0, target := some 5, mode := .wait };
      let u := { linked with
        sq := { linked.sq with pendingTr := none }
        st := { slots := upd linked.st.slots 1 (some (.steady { theBody with triggers := [] })) } };
      let s := proposing .proposer x 2 (some 0) u;
      s.AtBoundary 1000 ∧ s.WaitsToAccept x ∧ s.limitDue 1000 = some 1 ∧ s.CanEnter 1 { theBody with triggers := [] } ∧
        s.pr.ring = .up ∧ s.pr.waiting = none ∧
        goesTo (exec .timeLimit s) (fun t => t.sq.active == some 1 && t.out.ring.length == 1)) ∧
    (let s := { linked with sq := { linked.sq with count := 65534 } };
      s.sq.count + 1 = 65535 ∧ s.entryCheck 1 = none ∧ goesTo (exec .transition s) (fun t => t.sq.lastClose == some .limit)) ∧
    (let s := { atEt 1000 (runningWith (some (.steady { theBody with triggers := [onEdge .wait] })) none 7) with
        sq := { (runningWith none none 7).sq with held := some { cause := .trigger 0, at' := 0 }, heldDue := some 1000 } };
      s.AtBoundary 1000 ∧ s.triggers[0]? = some (onEdge .wait) ∧
        goesTo (exec .heldTriggerTaken s) (fun t => t.pr.proposal.role == .proposer)) := by
  simp only [State.AtBoundary, State.WaitsToAccept, State.CanEnter]; decide +kernel

theorem test_meets_ReadersMove :
    (idle.Takes .cp ∧ (idle.rs.reader .cp).subscribed = true) ∧
    (idle.Takes .ap ∧ (idle.rs.reader .ap).subscribed = false ∧
      ((idle.rs.reader .ap).cursor - idle.rs.oldest).toNat ≤ idle.rs.records.length) ∧
    idle.rs.records.length < ((3 : SeqNo) - idle.rs.oldest).toNat ∧
    ((2 : SeqNo) - idle.rs.oldest).toNat ≤ idle.rs.records.length ∧
    (let s := { idle with rs := { idle.rs with apReader := { cursor := 0, subscribed := false } } };
      s.rs.records.length < ((s.rs.reader .ap).cursor - s.rs.oldest).toNat) := by
  simp only [State.Takes]; decide +kernel

/-- R150, R151: a REWIND that makes the one record held count again falls from 4,096 to below it, and not once below; a read past
it rises again. -/
theorem test_meets_ReadersMove_space :
    (∀ x ∈ [(61417, true), (61416, false), (61465, false)],
      let s := tight x.1 2;
      s.Takes .cp ∧ s.rs.LowSound ∧ s.rs.low = decide (x.1 = 61465) ∧
        goesTo (exec (.rewind .cp 1) s) (fun t => (t.notices.cp.entries[(8 : Fin 11)]).isSome == x.2 &&
          t.rs.low == decide (t.rs.available < 4096) && (t.notices.cp.entries[(9 : Fin 11)]).isSome)) ∧
    (let s := tight 61417 1;
      s.rs.low = true ∧ goesTo (exec (.readRecords .cp 1 200) s) (fun t => !t.rs.low && (t.notices.cp.entries[(9 : Fin 11)]).isNone)) := by
  simp only [State.Takes, Store.LowSound]; decide +kernel

theorem test_meets_ReadRecordsAndEraseStore :
    (idle.Takes .cp ∧ 200 < 201 ∧ 200 ≤ 200 ∧
      ((idle.rs.reader .cp).cursor - idle.rs.oldest).toNat ≤ idle.rs.records.length ∧ idle.sq.runState = .idle) ∧
    (running.Takes .cp ∧ running.sq.runState ≠ .idle) ∧
    (let s := { idle with rs := { idle.rs with cpReader := { cursor := 0, subscribed := true } } };
      s.rs.records.length < ((s.rs.reader .cp).cursor - s.rs.oldest).toNat) := by
  simp only [State.Takes]; decide +kernel

theorem test_meets_TheRingIsConfiguredAndKept :
    (idle.pins.resetN = true ∧ (idle.port .cp).queue.length < 4 ∧ idle.sq.runState = .idle ∧
      running.sq.runState ≠ .idle ∧ idle.pr.enable = false) ∧
    (let s := { idle with pr := { idle.pr with enable := true } }; s.pr.enable = true ∧ s.pr.ring = .down) ∧
    ((onRing .up (runningWith none none 7)).pr.ring = .up ∧ (onRing .up (runningWith none none 7)).joint ≠ 0) ∧
    (let m : Member := { beacon := aBeacon 0, seen := 0 };
      let s := { onRing .up idle with pr := { (onRing .up idle).pr with
        members := upd idle.pr.members 1 (some m), round := 3 } };
      let u := { s with pr := { s.pr with round := 4 } };
      s.pr.members[1] = some m ∧ s.rounds < m.seen + 4 ∧ u.pr.members[1] = some m ∧ m.seen + 4 ≤ u.rounds) := by
  decide +kernel

/-- Node 0 at a beacon instant, with the history given. -/
def beaconing (r : RingState) (h : BeaconHistory) : State :=
  let s := onRing r (atEt 1000 idle)
  { s with pr := { s.pr with history := h } }

/-- R60, R113, R174: at an EVENT that reports input 15 of node 1 ACTIVE a trigger, a trip of poles A and C, a close, and a refused close
with their records; the trip's instant is come or past by the EVENT's device time. -/
theorem test_meets_BeaconsEventsAndAbortsArrive_inputs :
    let src : Source := .remoteInput 1 15
    let trips : List TripSource := [{ source := src, poles := 5 }]
    let event (dev : Nat) := fromNode1 (.event (.input 15 .active) dev { disc := .locked, suspect := false })
    let s (k : Breaker) : State := onRing .up ((atEt 50000 (runningWith (some (.steady { theBody with triggers := [
      { cond := .remoteInput 1 15 .active, target := 1, mode := .alone }] })) none 7)).putBreaker 0 k)
    let u := s (aPolePosition .opened [] [src])
    ((s (aPolePosition .closed trips [])).bs.TripsOnly 0 src { source := src, poles := 5 } ∧ u.bs.ClosesOnly 0 src ∧
      u.bs.RemembersSound ∧ polesAllOpen u.bs.breakers[0].poles = true ∧ u.Quiet ∧ u.Arrives (event 10001) ∧ u.MayExit ∧
      (s (aPolePosition .closed [] [src])).RefusesClose 0 .notOpen) ∧
    ∀ x ∈ [(10001, s (aPolePosition .closed trips []), [PoleState.opening, .closed, .opening], [10]),
        (10000, s (aPolePosition .closed trips []), [.opened, .closed, .opened], [8, 8, 8, 8, 10]),
        (10000, u, [.closing, .closing, .closing], [10]), (10000, s (aPolePosition .closed [] [src]), [.closed, .closed, .closed], [8, 10])],
      goesTo (exec (.eventReceived (event x.1).bytes) x.2.1) (fun t =>
        (t.bs.breakers[(0 : Fin 4)].poles.map Pole.state).toList == x.2.2.1 && committed t == x.2.2.2 &&
          t.sq.pendingTr.map PendingTransition.target == some 1) := by
  simp only [BreakerSim.TripsOnly, BreakerSim.ClosesOnly, BreakerSim.RemembersSound, State.Quiet, State.Arrives, MsgBody.Carries,
    State.MayExit, State.RefusesClose, fromNode1]
  refine ⟨⟨by decide +kernel, by decide +kernel, by decide +kernel, by decide +kernel, by decide +kernel, by decide +kernel,
    by decide +kernel, .inl (by decide +kernel)⟩, by decide +kernel⟩

theorem test_meets_BeaconsAreSentAndCounted :
    (∀ x ∈ [(RingState.up, BeaconHistory.mk 3 0 (some true)), (.up, .mk 3 0 (some false)), (.forming, .mk 0 2 (some false)),
        (.forming, .mk 1 0 (some true)), (.forming, .mk 2 0 (some true)), (.up, .mk 0 1 (some false)), (.forming, .mk 2 0 none),
        (.forming, .mk 0 0 none), (.up, .mk 0 1 none)],
      (beaconing x.1 x.2).pins.resetN = true ∧ (beaconing x.1 x.2).beaconDue = some 1000) := by decide +kernel

theorem test_meets_BeaconsEventsAndAbortsArrive :
    (let s := { beaconing .up (.mk 3 0 (some false)) with
        pr := { (beaconing .up (.mk 3 0 (some false))).pr with own := some (aBeacon 1000) } };
      s.pr.enable = true ∧ s.pins.light = true ∧ { fromNode1 (.beacon (aBeacon 1000)) with orig := 0 }.orig = s.pr.node ∧
        s.pr.own = some (aBeacon 1000) ∧ s.pr.history.last = some false) ∧
    (onRing .up idle).Arrives (fromNode1 (.beacon (aBeacon 999999))) ∧
    (onRing .up idle).Arrives (fromNode1 (.event (.input 15 .active) 0 { disc := .locked, suspect := false })) ∧
    (onRing .up idle).Arrives { fromNode1 (.event (.breaker 3 none .breakerOpen) 0 { disc := .free, suspect := true }) with hop := 3 } ∧
    ((onRing .up (runningWith none none 7)).Arrives (fromNode1 (.abort 7 (some .aborted))) ∧
      (onRing .up (runningWith none none 7)).joint = 7) ∧
    (let s := proposing .proposer { aProposal with proposer := 0 } 2 (some 0) (onRing .up (armed .command 7));
      s.Arrives (fromNode1 (.decline 7 0 9)) ∧ s.joint = 7 ∧ s.pr.node = 0 ∧ s.pr.proposal.role = .proposer ∧
        s.pr.proposal.prop = some { aProposal with proposer := 0 }) := by
  simp only [State.Arrives, MsgBody.Carries, fromNode1, aBeacon]; decide +kernel

/-- R163: the return of the own beacon judges the time source, here node 0 or, since it serves, node 1. -/
theorem test_meets_BeaconsEventsAndAbortsArrive_source :
    let serving : Beacon := { aBeacon 1000 with source := .pps, tq := { disc := .locked, suspect := false } }
    let s (own other : Beacon) (src : Option (Fin 4)) (r : RingState) : State :=
      { beaconing r (.mk 3 0 (some false)) with
        pr := { (beaconing r (.mk 3 0 (some false))).pr with
          own := some own, members := upd Ring.cold.members 1 (some { beacon := other, seen := 0 }), timeSource := src } }
    let back : Message := { orig := 0, hop := 4, body := .beacon (aBeacon 1000) }
    let source (t : State) : Bool := t.pr.timeSource == some 0 && t.pr.history.last == some true
    ((s serving serving (some 1) .up).pr.Chosen 0 ∧ (s (aBeacon 1000) serving (some 1) .up).pr.Chosen 1 ∧
      (s (aBeacon 1000) (aBeacon 1000) (some 1) .up).pr.Chosen 0) ∧
    (∀ x ∈ [s serving serving (some 1) .up, s (aBeacon 1000) (aBeacon 1000) (some 1) .up,
        s (aBeacon 1000) (aBeacon 1000) (some 0) .up], goesTo (exec (.beaconReceived back.bytes) x) source) ∧
    goesTo (exec (.beaconReceived back.bytes) (s serving serving none .forming)) (fun t => t.pr.timeSource.isNone) := by
  refine ⟨⟨.inl ⟨⟨by decide +kernel, _, .inl ⟨rfl, rfl⟩, rfl, rfl⟩, fun k hk => absurd hk (by omega)⟩, .inl ⟨⟨by decide +kernel, _,
    .inr ⟨by decide, _, rfl, rfl⟩, rfl, rfl⟩, fun k hk h => ?_⟩, .inr ⟨fun k h => ?_, by decide +kernel,
    fun k hk => absurd hk (by omega)⟩⟩, by decide +kernel, by decide +kernel⟩
  · obtain rfl : k = 0 := by omega
    obtain ⟨-, b, ⟨-, hb⟩ | ⟨hn, -⟩, hs, -⟩ := h
    · cases hb; cases hs
    · exact hn rfl
  · obtain ⟨hm, b, hb, hs, -⟩ := h
    have members : ∀ j : Fin 4, ∀ x, (upd Ring.cold.members 1 (some (Member.mk (aBeacon 1000) 0)))[j] = some x →
        x.beacon = aBeacon 1000 := by decide +kernel
    rcases hb with ⟨-, hb⟩ | ⟨-, x, hx, rfl⟩
    · cases hb; cases hs
    · rw [members k x hx] at hs; cases hs

theorem test_meets_ProposalsAreAnsweredAndCommitted :
    (let s := onRing .up (armed .peer 7);
      s.Arrives (fromNode1 (.propose 7 9 none .preempt)) ∧ s.pr.ring = .up ∧ s.joint = 7 ∧
        s.pr.proposal = ProposalState.idle ∧ s.sq.pendingTr = none ∧ s.sq.heldDue = none ∧ s.sq.runState = .armed) ∧
    (let s := onRing .up (runningWith (some (.steady theBody)) none 65535);
      s.Arrives (fromNode1 (.propose 65535 9 (some 1) .preempt)) ∧ s.joint = 65535 ∧ s.pr.proposal = ProposalState.idle ∧
        s.sq.runState = .running) ∧
    ((onRing .up idle).Arrives (fromNode1 (.propose 0 9 none .preempt)) ∧ (onRing .up idle).pr.ring = .up) := by
  simp only [State.Arrives, MsgBody.Carries, fromNode1, implies_true]; decide +kernel

theorem test_meets_ProposalsAreAnsweredAndCommitted_further :
    (let s := proposing .proposer { aProposal with proposer := 0 } 6 (some 0) (onRing .up (armed .command 7));
      s.Arrives (fromNode1 (.accept 7 0 9)) ∧ s.pr.proposal.tc = none ∧
        setMember s.pr.proposal.toAccept 1 false = 4 ∧ setMember (2 : BitVec 4) 1 false = 0) ∧
    (let s := proposing .pledged aProposal 0 none (onRing .up (armed .peer 7));
      s.Arrives (fromNode1 (.commit 7 9 (devModulus - 1))) ∧ s.Arrives (fromNode1 (.withdraw 7 9)) ∧
        s.pr.proposal.role = .pledged ∧ s.pr.proposal.prop = some aProposal ∧ s.pr.proposal.tc = none) ∧
    (let s := proposing .proposer { aProposal with proposer := 0 } 2 (some 0) (onRing .up (atEt 99999 (armed .command 7)));
      s.pr.proposal.toAccept ≠ 0 ∧ s.pr.proposal.sentAt = some 0 ∧ (s.tb.et - 0).toNat < 100000 ∧ s.sq.runState = .armed) ∧
    100000 ≤ ((100000 : Tick) - 0).toNat := by
  simp only [State.Arrives, MsgBody.Carries, fromNode1]; decide +kernel

theorem test_meets_ProposalsAreAnsweredAndCommitted_waits :
    (∀ slot0 ∈ [theBody, { theBody with triggers := [{ cond := .peer, target := 1, mode := .alone }] }],
      let s := onRing .up (runningWith (some (.steady slot0)) none 7);
      s.Arrives (fromNode1 (.propose 7 9 (some 1) .wait)) ∧ s.pr.proposal = ProposalState.idle ∧ s.sq.pendingTr = none ∧
        s.sq.heldDue = none ∧ s.sq.runState = .running) ∧
    ((onRing .up (runningWith none none 7)).Arrives (fromNode1 (.propose 7 9 none .preempt)) ∧
      (onRing .up (armed .peer 7)).Arrives (fromNode1 (.propose 7 9 (some 1) .preempt))) ∧
    (∀ n ∈ [(0 : Fin 4), 1, 2],
      let s := { linked with pr := { linked.pr with waiting := some { aProposal with proposer := n } } };
      s.Arrives (fromNode1 (.propose 7 9 (some 1) .wait)) ∧ s.pr.proposal = ProposalState.idle ∧
        s.sq.pendingTr.isSome = true ∧
        goesTo (exec (.proposeReceived (fromNode1 (.propose 7 9 (some 1) .wait)).bytes) s)
          (fun t => t.pr.waiting.map Proposal.proposer == some (if n ≤ 1 then n else 1))) := by
  simp only [State.Arrives, MsgBody.Carries, fromNode1, implies_true, reduceCtorEq, false_implies]
  refine ⟨by decide +kernel, by decide +kernel, by decide +kernel⟩

/-- R167, R172: while node 1's proposal is deferred, node 1's next one is answered in its place, and one of node 1 while node
0's is deferred is passed by. -/
theorem test_meets_ProposalsAreAnsweredAndCommitted_deferred :
    (∀ n ∈ [(1 : Fin 4), 2],
      let s := proposing .deferred { aProposal with proposer := n, target := some 1, mode := .wait } 0 none
        (onRing .up (runningWith (some (.steady theBody)) none 7));
      s.Answers 1 ∧ s.Arrives (fromNode1 (.propose 7 10 (some 2) .preempt)) ∧ s.sq.pendingTr = none ∧ s.sq.heldDue = none ∧
        goesTo (exec (.proposeReceived (fromNode1 (.propose 7 10 (some 2) .preempt)).bytes) s)
          (fun t => t.pr.proposal.role == .pledged && t.pr.proposal.prop.map Proposal.number == some 10)) ∧
    (let s := proposing .deferred { aProposal with proposer := 0, target := some 1, mode := .wait } 0 none
        { onRing .up (runningWith (some (.steady theBody)) none 7) with
          pr := { (onRing .up (runningWith (some (.steady theBody)) none 7)).pr with node := 2 } };
      s.Arrives (fromNode1 (.propose 7 10 (some 2) .preempt)) ∧ s.pr.proposal.tc = none ∧ s.pr.proposal.role = .deferred) := by
  simp only [State.Answers, State.Arrives, MsgBody.Carries, fromNode1, implies_true]
  refine ⟨fun n hn => ⟨.inr ⟨rfl, rfl, _, rfl, ?_⟩, ?_, ?_, ?_, ?_⟩, by decide +kernel⟩ <;> revert n <;> decide +kernel

/-- IDLE, the store full of RUN_CLOSE records that its subscribed reader has not passed. -/
def filled : State :=
  let body : RecordBody := .runClose (idle.closeData .aborted 0 idle.snapshot)
  { idle with rs := { idle.rs with
      records := (List.range 1024).map (fun i => { seq := BitVec.ofNat 32 (i + 1), run := 0, body := body })
      nextSeq := 1025 } }

/-- R148, R188: the reply of a RESTART names the START_UP record, or none where a full store drops it. -/
theorem test_meets_RestartIsWarm_startUp :
    let seq (t : State) : Option (Option SeqNo) := match (t.port .cp).queue with
      | [⟨_, .ok, .restarted _ n⟩] => some n
      | _ => none
    idle.Takes .cp ∧ idle.SpaceSound ∧ filled.SpaceSound ∧ totalLength filled.rs.records = 65536 ∧
      goesTo (exec (.restart .cp 1 true) idle) (fun t => seq t == some (some idle.rs.nextSeq) &&
        t.rs.records.getLast?.map Record.seq == some idle.rs.nextSeq) ∧
      goesTo (exec (.restart .cp 1 true) filled) (fun t => seq t == some none && t.rs.totalDropped == 1) := by
  simp only [State.Takes, State.SpaceSound]; decide +kernel

/-- R122, R141, R177, R188: a RESTART of a run pledged on the ring, with a late pole, a full pending set and measurements that wait and
time, leaves the cold values of ring and poles, START_UP's notices alone, and the results of the close. -/
theorem test_meets_RestartIsWarm_live :
    let u := proposing .pledged aProposal 3 (some 1) (onRing .up running)
    let pole : Pole := { moving .closing (some { serial := 1, number := none }) (some { at' := 1, trip := 1, late := false }) with
      late := true }
    let timing : Measurement := { u.mu.meas[0] with definition := some theWindow, live := .timing, start := some 1 }
    let s := { u with
      pr := { u.pr with
        history := { returns := 3, losses := 1, last := some true }, members := Vector.replicate 4 (some { beacon := aBeacon 0, seen := 4 })
        round := 9, own := some (aBeacon 0), membership := 15, levels := Vector.replicate 4 (Vector.replicate 16 (some .active)), poor := 6
        waiting := some aProposal, nextNumber := 5, unsent := 7 }
      bs := { breakers := Vector.replicate 4 { Breaker.cold with trips := 2, closes := 3, poles := Vector.replicate 3 pole } }
      rs := { u.rs with cpReader := { u.rs.cpReader with subscribed := true } }
      notices := { u.notices with cp := { entries := Vector.replicate 11 (some { detail := .test 1, count := 1 }), attn := true } }
      mu := { u.mu with meas := upd (upd u.mu.meas 0 timing) 1 { timing with live := .waitingStart, start := none } } }
    s.Takes .ap ∧ s.mu.waiting = [] ∧ goesTo (exec (.restart .ap 1 true) s) (fun t =>
      t.pr == { Ring.cold with enable := true, ring := .forming } && (t.bs.breakers[(3 : Fin 4)].poles == Vector.replicate 3 Pole.cold) &&
        ((List.finRange 11).filter (fun k => (t.notices.get .cp).entries[k].isSome)) == [7, 9] &&
        ((List.finRange 11).filter (fun k => (t.notices.get .ap).entries[k].isSome)) == [] &&
        (t.notices.get .cp).entries[9].map NoticeEntry.detail == some (.reportReady (t.rs.nextSeq - 1)) &&
        t.mu.meas[0].result.map MeasResult.outcome == some .notRun && t.mu.meas[1].result.map MeasResult.outcome == some .notRun &&
        t.mu.meas[0].start == some 1 && t.mu.meas[1].live == .done) := by
  simp only [State.Takes]; decide +kernel

/-- R164: a RESTART in UP reports the ring state and then the time source, after START_UP. -/
theorem test_restart_reports_source :
    let s := { onRing .up idle with pr := { (onRing .up idle).pr with timeSource := some 2 } };
    goesTo (exec (.restart .cp 1 true) s) (fun t =>
      (t.rs.records.drop s.rs.records.length).map Record.body ==
        [.startUp true s.stamp, .peerEvent (.ring .up .forming), .peerEvent (.source (some 2) none)]) := by decide +kernel

theorem test_meets_ProposalsAreAnsweredAndCommitted_crossings :
    (∀ r ∈ [Role.proposer, .pledged], ∀ n ∈ [(0 : Fin 4), 2],
      let s := proposing r { aProposal with proposer := n } 2 (some 0) (onRing .up (armed .peer 7));
      s.Arrives (fromNode1 (.propose 7 9 none .preempt)) ∧ s.pr.proposal.role = r ∧ s.pr.proposal.tc = none ∧
        goesTo (exec (.proposeReceived (fromNode1 (.propose 7 9 none .preempt)).bytes) s)
          (fun t => t.pr.proposal.prop.map Proposal.proposer == some (if n = 0 then 0 else 1))) ∧
    (let s := proposing .deferred { aProposal with mode := .wait } 0 none (onRing .up (runningWith none none 7));
      s.Arrives (fromNode1 (.withdraw 7 9)) ∧ s.joint = 7 ∧ s.pr.proposal.role = .deferred) ∧
    (∀ tc ∈ [0, 500],
      let s := proposing .pledged aProposal 0 none (onRing .up (atEt 301 (armed .peer 7)));
      s.Arrives (fromNode1 (.commit 7 9 tc)) ∧
        goesTo (exec (.commitReceived (fromNode1 (.commit 7 9 tc)).bytes) s)
          (fun t => t.pr.proposal.late == if tc = 0 then some 301 else none)) := by
  simp only [State.Arrives, MsgBody.Carries, fromNode1, implies_true]
  refine ⟨by decide +kernel, by decide +kernel, by decide +kernel⟩

theorem test_meets_NoticesAndRestart :
    idle.Takes .cp ∧ running.Takes .ap ∧ (armed .command 0).Takes .cp ∧ inhibited.Takes .ap ∧ (9 ≤ 9 ∧ 4 ≤ 4) ∧
      (idle.notices.get .cp).entries[10] = none ∧ (idle.port .cp).queue.length < 3 := by
  simp only [State.Takes]; decide +kernel

theorem test_meets_ReadCommandsOnlyAnswer :
    ∀ isLate : Bool,
      let late : Option Tick := if isLate then some 50 else none;
      let s := proposing .pledged aProposal 0 none (onRing .up (armed .peer 7));
      let u := { s with pr := { s.pr with proposal := { s.pr.proposal with tc := some 150, late := late } } };
      u.Takes .cp ∧ u.sq.runState = .armed ∧ u.sq.startPending = none ∧ u.pr.proposal.tc = some 150 ∧
        aProposal.target = none ∧ ({ aProposal with target := some 5 } : Proposal).target.isSome = true := by
  simp only [State.Takes]; decide +kernel

/-- R29: READ INPUTS shows the last sampling instant: an output pattern set after it does not show until the next. -/
theorem test_meets_ReadCommandsOnlyAnswer_inputs :
    let shows (o : Host.Outcome State Fault Refusal) (d : BitVec 8) : Bool := goesTo o (fun t =>
      goesTo (exec (.readInputs .cp 1) t) (fun u => match (u.port .cp).queue.getLast? with
        | some ⟨_, .ok, .inputs v⟩ => v.driven == d
        | _ => false))
    idle.now.sampled = none ∧ (sampled idle).now.sampled = some 2000 ∧
      shows (exec (.setRestPattern .ap 1 3) idle) 0 ∧ shows (exec (.setRestPattern .ap 1 3) (sampled idle)) 3 := by decide +kernel

/-- R187, R188, R178: a RESTART on one port, or a reset, cuts the other port's transaction at the bytes clocked by then. -/
theorem test_meets_RestartAndReset_cut :
    let s := idle.setPort .ap { idle.port .ap with framing := some (.reply aReply none) }
    (s.Takes .cp ∧ (s.port .ap).framing = some (.reply aReply none) ∧ (s.port .cp).framing = none) ∧
    (∀ c ∈ [Instr.restart .cp 1 true, .resetAssert],
      goesTo (exec c s) (fun t => (t.out.ap.cut == some (.reply aReply none)) &&
        goesTo (exec (.transactionEnd .ap ⟨List.replicate 5 0, 3⟩ true) t) (fun u =>
          u.out.ap.sent == (Outgoing.bytes (.reply aReply none)).take 3 ++ [255, 255]))) := by
  simp only [State.Takes]; decide +kernel

/-- R179, R180: with the queue full after the outgoing frame is settled, a bad frame is lost and a poll is not. -/
theorem test_meets_TransactionsAndReset_full :
    let s := (crowded idle).setPort .cp { (crowded idle).port .cp with framing := some .emptyReply }
    4 ≤ (s.port .cp).queue.length ∧
      goesTo (exec (.transactionEnd .cp ⟨[255], 0⟩ true) s) (fun t => t.ports.cp.overrun && t.ports.cp.lost == 1) ∧
      goesTo (exec (.transactionEnd .cp ⟨withCrc [0, 0, 0], 0⟩ true) s) (fun t => !t.ports.cp.overrun) := by decide +kernel

theorem test_meets_TransactionsAndReset :
    (idle.pins.resetN = true ∧ (idle.port .cp).framing = none ∧ (idle.port .cp).queue = [] ∧
      ((crowded idle).port .cp).queue = aReply :: [aReply, aReply, aReply]) ∧
    (∀ o ∈ [Outgoing.emptyReply, .reply aReply none, .reply aReply (some 255)],
      ((idle.setPort .ap { idle.port .ap with framing := some o, queue := [aReply] }).port .ap).framing = some o ∧ 7 ≤ o.length) ∧
    ([255].length < (Outgoing.reply aReply none).length ∧
      (Outgoing.reply aReply (some 255)).length ≤ (withCrc [40, 1, 0, 0, 0]).length) ∧
    (let d : DataOutput := { sent := [], cut := some (.reply aReply none) };
      (idle.out.get .cp).cut = none ∧
        ({ idle with out := { idle.out with cp := d } }.out.get .cp).cut = some (.reply aReply none)) ∧
    CommandFrame.ofBytes [255] = none ∧ (CommandFrame.ofBytes (withCrc [0, 0, 0])).map CommandFrame.code = some 0 ∧
    (CommandFrame.ofBytes (withCrc [40, 1, 0])).map CommandFrame.code = some 40 := by decide +kernel

/-! ### Worked cases of the spec, one step each -/

/-- CH0 of worked case 5.9 in a state, after a frame that stood at `p` with DC term `dc` and sample `last`. -/
def fault59 (active : Fin 64) (angle : Int) (amp : Int) (phi p : Phase) (dc last : Int) : State :=
  let slot (mag : Nat) (angle : Int) (anchor : Bool) (tau : Option Nat) : Option StateRecord :=
    some (.steady { theBody with
      setpoints := upd theBody.setpoints 0 { mag := mag, angle := angle, freq := 50000, tau := tau }
      anchor := anchor, limit := none, triggers := [] })
  let s := atEt 100 (runningWith (slot 10000 0 true none) (slot 100000 (-9180) false (some 400)) 0)
  { s with
    sq := { s.sq with active := some active }
    ws := { s.ws with channels := upd s.ws.channels 0 { s.ws.channels[0] with
      decl := .ready 320000, gain := 500, offset := -3, mag := 100000, angle := angle, freq := 50000, amp := amp
      phi := phi, inc := 21474836, acc := p, dc := dc, kq := 16735325, sLast := last, uncutLast := last } } }

/-- Worked case 5.9, fault 1: the sample is carried over unbroken, and the DC term starts at 14,142. -/
theorem test_worked_fault_entry :
    let s := fault59 0 0 14142 0 21474836 0 14142
    goesTo (exec (.frameBoundary false) { s with sq := { s.sq with
        pendingTr := some { target := 1, cause := .trigger 0, boundary := 100 } } })
      (fun t => t.ws.channels[0].outLast == 14146 && t.ws.channels[0].sLast == 14142 && t.ws.channels[0].dc == 14106 &&
        t.ws.channels[0].acc == 42949672#32) := by decide +kernel

/-- Worked case 5.9, fault 2. -/
theorem test_worked_fault_second_frame :
    goesTo (exec (.frameBoundary false) (fault59 1 (-9180) 141421 3199750636#32 42949672 14106 14142))
      (fun t => t.ws.channels[0].sLast == 18547 && t.ws.channels[0].outLast == 18553 && t.ws.channels[0].dc == 14070) := by
  decide +kernel

/-- Worked case 5.9, fault 3. -/
theorem test_worked_fault_third_frame :
    goesTo (exec (.frameBoundary false) (fault59 1 (-9180) 141421 3199750636#32 64424508 14070 18547))
      (fun t => t.ws.channels[0].sLast == 22949 && t.ws.channels[0].outLast == 22957) := by decide +kernel

/-- R128: the bands of the examples with a of 5,000 and r of 100, and the outcomes of a Tm of 65,900 and of 67,300. -/
theorem test_worked_bands :
    (MeasKind.time 60000 5000 100).band = 6000 ∧ (MeasKind.time 20000 5000 100).band = 5000 ∧
      bandOutcome (65900 - 60000) 6000 .early .late = .pass ∧ bandOutcome (67300 - 60000) 6000 .early .late = .late := by
  decide

/-- R190: the empty reply is 7 bytes and carries tag 0, result code 255, flags 0, lost count 0, length 0. -/
theorem test_empty_reply_bytes :
    Outgoing.emptyReply.length = 7 ∧ Outgoing.emptyReply.bytes.take 5 = [0, 255, 0, 0, 0] := by decide +kernel

/-- R178: the bytes after the end of the outgoing frame are fill, all ones. -/
theorem test_fill_after_the_frame :
    goesTo (exec (.transactionEnd .ap ⟨List.replicate 9 0, 0⟩ true)
        (idle.setPort .ap { idle.port .ap with framing := some .emptyReply }))
      (fun t => t.out.ap.sent == Outgoing.emptyReply.bytes ++ [255, 255]) := by decide +kernel

/-- R1, R4, R62: over the wrap of ET the grid begins again at ET 0, and a limit of 1,000 is met at the first boundary at or after. -/
theorem test_time_limit_over_the_wrap :
    let s := atEt 1000 running
    let u := { s with sq := { s.sq with entryBoundary := some 281474976710600 } }
    281474976710600 % 100 = 0 ∧ u.boundaryNow = some 1000 ∧ u.limitDue 1000 = some 1 ∧ u.limitDue 900 = none := by
  decide +kernel

/-- R190: code, tag, length, payload of SET TRIM -2,000 as a command frame of n + 5 bytes. -/
theorem test_command_frame_bytes :
    (carried (.setTrim .cp 7 (-2000))).map (fun f => (f.frame.length, f.frame.take 5)) =
      some (7, [5, 7, 2, 0xF8, 0x30]) := by decide +kernel

/-- R30, R190: CONFIGURE OUTPUT carries the function, here 52b of breaker 2, and then the output. -/
theorem test_configure_output_frame :
    goesTo (exec (.transactionEnd .cp ⟨withCrc [7, 1, 4, 1, 2, 1, 5], 0⟩ true)
        (idle.setPort .cp { idle.port .cp with framing := some .emptyReply }))
      (fun t => t.biu.funcs[(5 : Fin 8)] == .aux 2 true) ∧
    (carried (.configureOutput .cp 1 5 (.aux 2 1))).map Carried.payload = some [1, 2, 1, 5] := by decide +kernel

/-- R189: what is none is all ones in its width: in READ TIME the label, in RESTART the START_UP number, in the replies of the store the
oldest and newest number, in a result the value and the instants. -/
theorem test_none_is_all_ones :
    let r : MeasResult := { run := 1, outcome := .notRun, value := none, band := 2, start := none, stop := none, determined := 0
                            tq := { disc := .free, suspect := false }, deciding := none }
    (ReplyBody.restarted 258 none).bytes = [1, 2, 255, 255, 255, 255] ∧ (ReplyBody.restarted 258 (some 3)).bytes = [1, 2, 0, 0, 0, 3] ∧
    (ReplyBody.position 4 none none).bytes = [0, 0, 0, 4] ++ List.replicate 8 255 ∧
    (idle.timePicture.bytes.drop 22) = List.replicate 4 255 ++ [0, 0] ∧
    r.bytes 7 theWindow.kind = [0, 1, 7, 2, 8] ++ List.replicate 4 255 ++ [0, 0, 0, 2] ++ List.replicate 12 255 ++ [0, 255] := by
  decide +kernel

end Sys2Proof.Tests
end

section
/-! PROOFS of chapter 1's statements. The two readers that answer a picture and change nothing: READ TIME (R17) and READ BREAKERS
(R120). -/

namespace Sys2Proof.Machine

/-! ### Commands that answer a picture -/

/-- A taken command without fields that answers a picture leaves its reply behind and nothing else (R17, R120). -/
theorem State.takeCommand_readPicture {s : State} {p : Port} (h : s.Takes p) (tag : Byte) (picture : State → ReplyBody) :
    s.takeCommand p tag (fun s => s.readPicture true (picture s)) = s.replied p tag .ok (picture s) := by
  rw [State.takeCommand_taken h]
  simp [State.readPicture]

/-- READ TIME answers the time base's picture of this instant (R17). -/
theorem exec_readTime_taken {s : State} {p : Port} (h : s.Takes p) (tag : Byte) :
    exec (.readTime p tag) s = .next (s.replied p tag .ok (.time s.timePicture)) :=
  congrArg Host.Outcome.next (State.takeCommand_readPicture h tag fun s => .time s.timePicture)

/-- READ BREAKERS answers the breakers' picture of this instant (R120). -/
theorem exec_readBreakers_taken {s : State} {p : Port} (h : s.Takes p) (tag : Byte) :
    exec (.readBreakers p tag) s = .next (s.replied p tag .ok (.breakers s.breakersPicture)) :=
  congrArg Host.Outcome.next (State.takeCommand_readPicture h tag fun s => .breakers s.breakersPicture)

/-! ### The output that holds an aux function, as the breakers' picture shows it -/

theorem Biu.funcs_of_outputOf_some {b : Biu} {f : OutputFunc} {n : Fin 8} (h : b.outputOf f = some n) :
    b.funcs[n] = f := by
  have hn : (b.funcs[n] == f) = true := List.find?_some (p := fun n : Fin 8 => b.funcs[n] == f) h
  exact eq_of_beq hn

theorem Biu.outputOf_eq_none_iff (b : Biu) (f : OutputFunc) : b.outputOf f = none ↔ ∀ n : Fin 8, b.funcs[n] ≠ f := by
  simp [Biu.outputOf, List.find?_eq_none]

/-- One breaker of the picture (R120). -/
theorem State.breakersPicture_get (s : State) (k : Fin 4) :
    s.breakersPicture[k] =
      { cfg := s.bs.breakers[k].cfg
        out52a := s.biu.outputOf (.aux k false)
        out52b := s.biu.outputOf (.aux k true)
        trips := s.bs.breakers[k].trips
        closes := s.bs.breakers[k].closes
        poles := s.bs.breakers[k].poles } := by
  simp [State.breakersPicture]

/-- Settles O24. READ TIME's picture is R17's list field by field; in the picture of READ BREAKERS an aux output is the one that
the output assignment holds, and none where no output has the function. -/
theorem readTimeAndReadBreakers : Obligations.ReadTimeAndReadBreakers := by
  intro s p tag h
  refine ⟨exec_readTime_taken h tag, s.breakersPicture, exec_readBreakers_taken h tag, fun k => ?_⟩
  rw [State.breakersPicture_get]
  exact ⟨rfl, rfl, rfl, rfl,
    fun _ => Biu.funcs_of_outputOf_some, (Biu.outputOf_eq_none_iff _ _).mp,
    fun _ => Biu.funcs_of_outputOf_some, (Biu.outputOf_eq_none_iff _ _).mp⟩

end Sys2Proof.Machine
end

section
/-! PROOFS of chapter 3's statements on single slots. CLEAR STATE (R45), READ STATE (R47), and what WRITE STATE can do to the table
(R42). -/

namespace Sys2Proof.Machine

/-! ### Numbers of a range -/

theorem finOf_val {n : Nat} (k : Fin n) : finOf n k.val = some k := by
  simp [finOf]

theorem finOf_eq_none {n x : Nat} (h : n ≤ x) : finOf n x = none := by
  simp [finOf, h]

theorem val_of_finOf_eq_some {n x : Nat} {k : Fin n} (h : finOf n x = some k) : k.val = x := by
  obtain ⟨_, hk⟩ := Option.dite_none_right_eq_some.mp h
  exact congrArg Fin.val (Option.some.inj hk).symm

/-! ### The first two checks of a change to the table -/

/-- Check 1 passes in IDLE and in INHIBITED, and for the run's owner (R46). -/
theorem State.mayWrite_of_no_run_or_owner {s : State} {p : Port}
    (h : s.sq.runState = .idle ∨ s.sq.runState = .inhibited ∨ s.sq.owner = some p) : s.mayWrite p = true := by
  unfold State.mayWrite
  rcases h with h | h | h
  · rw [h]
  · rw [h]
  · split <;> simp [h]

/-- Check 1 refuses the port that does not own the ARMED or RUNNING run (R46). -/
theorem State.mayWrite_of_not_owner {s : State} {p : Port} (h : s.sq.runState = .armed ∨ s.running = true)
    (ho : s.sq.owner ≠ some p) : s.mayWrite p = false := by
  rw [State.running, beq_iff_eq] at h
  unfold State.mayWrite
  rcases h with h | h <;> simpa [h] using ho

/-- Check 2 (R42). -/
theorem State.isActive_iff (s : State) (n : Nat) :
    s.isActive n = true ↔ s.running = true ∧ ∃ k, s.sq.active = some k ∧ k.val = n := by
  simp [State.isActive]

theorem State.isActive_val (s : State) (k : Fin 64) :
    s.isActive k.val = decide (s.running = true ∧ s.sq.active = some k) := by
  rw [Bool.eq_iff_iff, State.isActive_iff, decide_eq_true_iff]
  simp only [← Fin.ext_iff, exists_eq_right]

/-! ### CLEAR STATE (R45) -/

theorem State.clearState_notOwner {s : State} {p : Port} (h : s.mayWrite p = false) (slot : Option Nat) (suits : Bool) :
    s.clearState p slot suits = s.refuse .notOwner := by
  simp [State.clearState, h]

theorem State.clearState_active {s : State} {p : Port} {n : Nat} (h : s.mayWrite p = true) (ha : s.isActive n = true)
    (suits : Bool) : s.clearState p (some n) suits = s.refuse .active := by
  simp [State.clearState, h, ha]

theorem State.clearState_beyond {s : State} {p : Port} {n : Nat} (h : s.mayWrite p = true) (ha : s.isActive n = false)
    (hn : 64 ≤ n) : s.clearState p (some n) true = s.refuse .badField := by
  simp [State.clearState, h, ha, finOf_eq_none hn]

theorem State.clearState_slot {s : State} {p : Port} {k : Fin 64} (h : s.mayWrite p = true)
    (ha : s.isActive k.val = false) : s.clearState p (some k.val) true = (s.putSlot k none).ok := by
  simp [State.clearState, h, ha, finOf_val]

theorem exec_clearState_taken {s : State} {p : Port} (h : s.Takes p) (tag : Byte) (slot : Nat) :
    exec (.clearState p tag slot) s = .next ((s.clearState p (some slot) true).deliver p tag) :=
  congrArg Host.Outcome.next (State.takeCommand_taken h tag _)

/-- An entry of an EMPTY slot traps before any check of a record (R48). -/
theorem State.entryCheck_empty {s : State} {k : Fin 64} (h : s.st.slots[k] = none) :
    s.entryCheck k = some (.emptySlot, none) := by
  simp [State.entryCheck, h]

/-- Settles O33, along the checks of CLEAR STATE in their order. A taken command replaces the slot alone, whatever it held; the next
entry of the slot then finds it EMPTY. -/
theorem clearStateEmptiesTheSlot : Obligations.ClearStateEmptiesTheSlot := by
  intro s p tag slot ht
  rw [exec_clearState_taken ht, ← State.isActive_iff]
  refine ⟨fun hrun howner => ?notOwner,
    fun hmay => ⟨fun hactive => ?active, fun hactive => ⟨fun hbeyond => ?beyond, ?inRange⟩⟩⟩
  case notOwner => rw [State.clearState_notOwner (State.mayWrite_of_not_owner hrun howner), State.refuse_deliver]
  case active => rw [State.clearState_active (State.mayWrite_of_no_run_or_owner hmay) hactive, State.refuse_deliver]
  case beyond =>
    rw [State.clearState_beyond (State.mayWrite_of_no_run_or_owner hmay) (Bool.eq_false_iff.mpr hactive) hbeyond,
      State.refuse_deliver]
  case inRange =>
    rintro k rfl
    constructor
    · rw [State.clearState_slot (State.mayWrite_of_no_run_or_owner hmay) (Bool.eq_false_iff.mpr hactive), State.ok_deliver,
        State.putSlot]
    · exact State.entryCheck_empty (by simp)

/-! ### READ STATE (R47) and the WRITE STATE before it -/

theorem State.readState_beyond {n : Nat} (h : 64 ≤ n) (s : State) : s.readState (some n) = s.refuse .badField := by
  simp [State.readState, finOf_eq_none h]

theorem State.readState_slot (s : State) (k : Fin 64) : s.readState (some k.val) =
    s.okWith (.slot s.st.slots[k] (decide (s.running = true ∧ s.sq.active = some k))) := by
  rw [← State.isActive_val]
  simp [State.readState, finOf_val]

theorem exec_readState_taken {s : State} {p : Port} (h : s.Takes p) (tag : Byte) (slot : Nat) :
    exec (.readState p tag slot) s = .next ((s.readState (some slot)).deliver p tag) :=
  congrArg Host.Outcome.next (State.takeCommand_taken h tag _)

/-- READ STATE of a slot answers its contents as stored, marks the active slot, and leaves its reply alone behind. -/
theorem exec_readState_slot {s : State} {p : Port} (h : s.Takes p) (tag : Byte) (k : Fin 64) :
    exec (.readState p tag k.val) s =
      .next (s.replied p tag .ok (.slot s.st.slots[k] (decide (s.running = true ∧ s.sq.active = some k)))) := by
  rw [exec_readState_taken h, State.readState_slot, State.okWith_deliver]

@[simp] theorem State.wrote_st (s : State) (clamps : BitVec 10) : (s.wrote clamps).st = s := by
  unfold State.wrote
  split <;> rfl

/-- WRITE STATE leaves the table as it is or puts one admitted record in the slot that it names (R42). -/
theorem State.writeState_table (s : State) (p : Port) (n : Nat) (a : RecordArg) :
    (s.writeState p (some n) (some a)).st.st = s.st ∨
      ∃ (k : Fin 64) (r : StateRecord), k.val = n ∧ checkRecord a = .ok r ∧
        (s.writeState p (some n) (some a)).st.st.slots = upd s.st.slots k (some r) := by
  unfold State.writeState
  dsimp only
  split
  · exact .inl rfl
  split
  · exact .inl rfl
  split
  · exact .inl rfl
  · exact .inl rfl
  next k r hk hr => exact .inr ⟨k, r, val_of_finOf_eq_some hk, hr, by simp [State.putSlot]⟩

/-- The table after a command is as it was, the command lost or none taken, or as the command's answer leaves it (R180, R187). -/
theorem State.takeCommand_table (s : State) (p : Port) (tag : Byte) (f : State → Answer) :
    (s.takeCommand p tag f).st = s.st ∨ (s.takeCommand p tag f).st = (f s).st.st := by
  unfold State.takeCommand
  split
  · exact .inl rfl
  split
  · exact .inl (by simp)
  · exact .inr (by simp [Answer.deliver])

/-- A slot that WRITE STATE names holds after it what it held before or the admitted record whole (R47). -/
theorem slot_after_writeState {s u : State} {p : Port} {tag : Byte} {k : Fin 64} {a : RecordArg}
    (h : exec (.writeState p tag k.val a) s = .next u) :
    u.st.slots[k] = s.st.slots[k] ∨ ∃ r, checkRecord a = .ok r ∧ u.st.slots[k] = some r := by
  obtain rfl : s.takeCommand p tag (fun s => s.writeState p (some k.val) (some a)) = u := Host.Outcome.next.inj h
  rcases State.takeCommand_table s p tag fun s => s.writeState p (some k.val) (some a) with hst | hst
  · exact .inl (by rw [hst])
  rcases State.writeState_table s p k.val a with hkept | ⟨j, r, hj, hr, hput⟩
  · exact .inl (by rw [hst, hkept])
  · obtain rfl : j = k := Fin.ext hj
    exact .inr ⟨r, hr, by rw [hst, hput]; exact upd_same _ _ _⟩

/-- Settles O34. READ STATE after the WRITE STATE is a READ STATE like any other, of the table that the WRITE STATE left. -/
theorem readStateAnswersTheSlot : Obligations.ReadStateAnswersTheSlot := by
  intro s p tag ht
  refine ⟨fun slot hbeyond => ?_, exec_readState_slot ht tag,
    fun q tag' k a u hwrite hu => ⟨exec_readState_slot hu tag k, slot_after_writeState hwrite⟩⟩
  rw [exec_readState_taken ht, State.readState_beyond hbeyond, State.refuse_deliver]

end Sys2Proof.Machine
end

section
/-! PROOFS of chapter 4's statements on how a run is ended and on the sequencer after reset. ABORT (R68) and the cold start with
either level of ESTOP_N (R69, R74). -/

namespace Sys2Proof.Machine

/-! ### ABORT (R68) -/

/-- With no run to end, ABORT is refused with STATE. -/
theorem State.abortRun_refused {s : State} (h : s.sq.runState = .idle ∨ s.sq.runState = .inhibited) :
    s.abortRun true = s.refuse .state := by
  simp [State.abortRun, h]

/-- ABORT of a RUNNING run is its close at the present instant. -/
theorem State.abortRun_running {s : State} (h : s.sq.runState = .running) :
    s.abortRun true = (s.closeRun .aborted s.tb.et).ok := by
  simp [State.abortRun, State.endRun, h]

/-- ABORT of an ARMED run is its unstarted end, which is not silent to the ring (R165). -/
theorem State.abortRun_armed {s : State} (h : s.sq.runState = .armed) :
    s.abortRun true = (s.endUnstarted false .idle).ok := by
  simp [State.abortRun, State.endRun, afterClose, h]

theorem exec_abort_taken {s : State} {p : Port} (h : s.Takes p) (tag : Byte) :
    exec (.abort p tag) s = .next ((s.abortRun true).deliver p tag) :=
  congrArg Host.Outcome.next (State.takeCommand_taken h tag _)

/-- Settles O45. The owner of the run plays no part: ABORT asks for the run state alone. -/
theorem abortEndsTheRun : Obligations.AbortEndsTheRun := by
  intro s p tag htakes
  rw [exec_abort_taken htakes]
  refine ⟨fun hnone => ?noRun, fun hrunning => ?running, fun harmed => ?armed⟩
  case noRun => rw [State.abortRun_refused hnone, State.refuse_deliver]
  case running =>
    rw [State.abortRun_running hrunning, State.ok_deliver]
    exact ⟨rfl, State.closeRun_closed s _ _ (by decide), by rw [State.closeRun_sq]⟩
  case armed =>
    rw [State.abortRun_armed harmed, State.ok_deliver]
    have hports : (s.endUnstarted false .idle).ports = s.ports := by simp
    exact ⟨_, rfl, State.answered_of_ports hports p tag _ _, by simp [State.endUnstarted_sq], by simp⟩

/-! ### The cold start with each level of ESTOP_N (R69, R74, R187) -/

/-- An emergency stop with no run to end: the stream enable cleared, the part INHIBITED, and ESTOP raised with run number 0. -/
theorem State.emergencyStop_idle {s : State} (h : s.sq.runState = .idle) (x : EstopSource) :
    s.emergencyStop x =
      State.raise { s with sq := { s.sq with runState := .inhibited, streamEnable := false } } (.estop x 0) := by
  simp [State.emergencyStop, State.running, State.endRun, h]

/-- A commit does not read the level of ESTOP_N. -/
theorem State.commit_withEstopN (s : State) (high : Bool) (b : RecordBody) :
    (s.withEstopN high).commit b = (s.commit b).withEstopN high := by
  have hrun : (s.withEstopN high).runNumber = s.runNumber := rfl
  simp only [State.commit, State.withEstopN_keeps, hrun]
  split <;> rfl

/-- With ESTOP_N high a cold start leaves the sequencer at its cold values. -/
theorem State.coldStart_high_sq (s : State) : (s.coldStart true).sq = .cold := by
  simp [State.coldStart, State.cold]

/-- With ESTOP_N low a cold start does all that it does with the pin high, and the emergency stop of the pin follows. -/
theorem State.coldStart_low (s : State) :
    s.coldStart false = ((s.coldStart true).withEstopN false).emergencyStop .pin :=
  congrArg (fun t : State => State.emergencyStop { t with out := s.out } .pin)
    (State.commit_withEstopN (State.cold { s.pins with resetN := true, estopN := true } s.pending) false _)

/-- Settles O10. With ESTOP_N low the emergency stop finds the sequencer IDLE, so there is no run to end before INHIBITED. -/
theorem coldSequencer : Obligations.ColdSequencer := by
  intro s
  have hidle : ((s.coldStart true).withEstopN false).sq.runState = .idle := by
    simp [State.coldStart_high_sq, Sequencer.cold]
  have hstop : exec (.coldStart false) s = .next (((s.coldStart true).withEstopN false).emergencyStop .pin) :=
    congrArg Host.Outcome.next s.coldStart_low
  refine ⟨s.coldStart true, rfl, ?_⟩
  rw [hstop, State.emergencyStop_idle hidle, State.coldStart_high_sq]
  and_intros <;> rfl

end Sys2Proof.Machine
end

section
/-! PROOFS of what the breakers, the measurements and the report store hold after a cold start, with either level of ESTOP_N (R121,
R140, R156). -/

namespace Sys2Proof.Machine

/-! ### The START_UP record (R156, R194) -/

@[simp] theorem be_length (n x : Nat) : (be n x).length = n := by
  induction n with
  | zero => rfl
  | succ n ih => simp [be, ih]

/-- A START_UP record takes 24 bytes, whatever it was committed with (R143, R194). -/
theorem Record.startUp_bytes_length (seq : SeqNo) (run : Nat) (warm : Bool) (t : Stamp) :
    (Record.bytes { seq := seq, run := run, body := .startUp warm t }).length = 24 := by
  simp [Record.bytes, RecordBody.bytes, Stamp.bytes, beBool, beEt, beDev, pad]

/-- START_UP finds room in the cold store: it joins as record 1 of run 0, and nothing is discarded for it (R144, R148). -/
theorem Store.cold_commit_startUp :
    Store.cold.commit 0 Record.coldStartUp.body =
      ({ Store.cold with records := [Record.coldStartUp], nextSeq := 2 }, true) := rfl

/-- A commit that leaves the low-space state where it stands joins its record and raises REPORT_READY, and no more (R150, R151). -/
theorem State.commit_stored {s : State} {b : RecordBody} {rs : Store} (h : s.rs.commit s.runNumber b = (rs, true))
    (hlow : decide (rs.available < 4096) = rs.low) :
    s.commit b = State.reportReady { s with rs := rs } s.rs.nextSeq := by
  simp [State.commit, h, State.settleSpace, State.reportReady, hlow]

/-! ### Notices of other kinds (R182) -/

theorem Notices.place_other (n : Notices) {d : Detail} {k : Fin 11} (h : d.kind.index ≠ k) :
    (n.place d).entries[k] = n.entries[k] :=
  upd_other n.entries d.kind.index k _ h

@[simp] theorem NoticeBoard.placeOn_get (b : NoticeBoard) (p q : Port) (d : Detail) :
    (b.placeOn p d).get q = if p = q then (b.get q).place d else b.get q := by
  cases p <;> cases q <;> rfl

theorem NoticeBoard.placeOn_other (b : NoticeBoard) (p q : Port) {d : Detail} {k : Fin 11} (h : d.kind.index ≠ k) :
    ((b.placeOn p d).get q).entries[k] = (b.get q).entries[k] := by
  rw [NoticeBoard.placeOn_get]
  split
  · exact Notices.place_other _ h
  · rfl

/-- A raise leaves the pending entries of every other kind as they were, on both ports. -/
theorem NoticeBoard.raise_other (b : NoticeBoard) (q : Port) {d : Detail} {k : Fin 11} (h : d.kind.index ≠ k) :
    ((b.raise d).get q).entries[k] = (b.get q).entries[k] := by
  unfold NoticeBoard.raise
  split
  · exact b.placeOn_other .cp q h
  · exact b.placeOn_other .ap q h
  · rw [NoticeBoard.placeOn_other _ .ap q h, b.placeOn_other .cp q h]
  · rfl

/-! ### The parts of the reset state that ESTOP_N has no say in -/

/-- With ESTOP_N high a cold start gives the reset state, and keeps the other pins, what was sent and the queue (R187). -/
theorem State.coldStart_high (s : State) :
    s.coldStart true =
      { State.reset with
        pins := { s.pins with resetN := true, estopN := true }, out := s.out, pending := s.pending } := by
  have hcommit := State.commit_stored (s := State.cold { s.pins with resetN := true, estopN := true } s.pending)
    Store.cold_commit_startUp (by decide)
  exact congrArg (fun t : State => { t with out := s.out }) hcommit

/-- Breakers, outputs, measurements, the store and REPORT_READY are those of the reset state with either level of ESTOP_N: the
emergency stop of the low pin finds no run to end, and raises ESTOP alone. -/
theorem State.coldStart_eq_reset (s : State) (e : Bool) :
    (s.coldStart e).bs = State.reset.bs ∧ (s.coldStart e).biu = State.reset.biu ∧ (s.coldStart e).mu = State.reset.mu ∧
      (s.coldStart e).rs = State.reset.rs ∧
      (s.coldStart e).notices.cp.entries[9] = State.reset.notices.cp.entries[9] := by
  cases e with
  | true => simp only [State.coldStart_high, and_self]
  | false =>
    rw [State.coldStart_low, State.coldStart_high, State.emergencyStop_idle rfl]
    exact ⟨rfl, rfl, rfl, rfl,
      NoticeBoard.raise_other State.reset.notices .cp (d := .estop .pin 0) (k := 9) (by decide)⟩

theorem exec_coldStart (s : State) (e : Bool) : exec (.coldStart e) s = .next (s.coldStart e) := rfl

/-! ### The cold values place by place (R33, R121, R140) -/

theorem BreakerSim.cold_breaker (k : Fin 4) : BreakerSim.cold.breakers[k] = Breaker.cold := by
  simp [BreakerSim.cold]

theorem Breaker.cold_pole (p : Fin 3) :
    Breaker.cold.cfg.scatter[p] = 0 ∧ Breaker.cold.cfg.assoc[p] = [] ∧ Breaker.cold.poles[p] = Pole.cold := by
  simp [Breaker.cold]

theorem Biu.cold_func (n : Fin 8) : Biu.cold.funcs[n] = .sequence := by
  simp [Biu.cold]

theorem MeasUnit.cold_meas (m : Fin 32) : MeasUnit.cold.meas[m] = Measurement.cold := by
  simp [MeasUnit.cold]

/-- Settles O11. Each part is that of the reset state, whose places are all alike and whose store holds START_UP alone. -/
theorem coldBreakersMeasurementsAndStore : Obligations.ColdBreakersMeasurementsAndStore := by
  intro s e
  obtain ⟨hbs, hbiu, hmu, hrs, hready⟩ := s.coldStart_eq_reset e
  refine ⟨s.coldStart e, exec_coldStart s e, fun k => ?breaker, fun n => ?output, fun m => ?measurement, hrs, ?lengths, hready⟩
  case breaker =>
    have hcold : (s.coldStart e).bs.breakers[k] = Breaker.cold := by rw [hbs]; exact BreakerSim.cold_breaker k
    rw [hcold]
    exact ⟨rfl, rfl, rfl, rfl, rfl, rfl, rfl, rfl, rfl, Breaker.cold_pole⟩
  case output =>
    rw [hbiu]
    exact Biu.cold_func n
  case measurement =>
    have hcold : (s.coldStart e).mu.meas[m] = Measurement.cold := by rw [hmu]; exact MeasUnit.cold_meas m
    rw [hcold]
    and_intros <;> rfl
  case lengths =>
    intro r hr
    rw [hrs] at hr
    obtain rfl : r = Record.coldStartUp := List.mem_singleton.mp hr
    exact Record.startUp_bytes_length _ _ _ _

end Sys2Proof.Machine
end

section
/-! PROOFS of what the part does to the pending sets, said once for every operation (R182 to R185): a pending set and its line, then
the operations that the blocks share, the frame and the breakers. The attention lines (R183) follow from it. -/

namespace Sys2Proof.Machine

/-! ### One pending set (R182, R183) -/

/-- The line is asserted exactly while the set holds an entry (R183). -/
def Notices.LineSound (n : Notices) : Prop := n.attn = n.any

/-- The entry that a raise leaves: of count 1 where none stood, else of a count one higher, up to 255 (R182). -/
def Notices.raised (n : Notices) (d : Detail) : NoticeEntry :=
  { detail := d, count := n.entries[d.kind.index].elim 1 fun e => min 255 (e.count + 1) }

theorem Notices.raised_new {n : Notices} {d : Detail} (h : n.entries[d.kind.index] = none) : (n.raised d).count = 1 := by
  simp only [Notices.raised, h, Option.elim_none]

theorem Notices.raised_again {n : Notices} {d : Detail} {e : NoticeEntry} (h : n.entries[d.kind.index] = some e) :
    (n.raised d).count = min 255 (e.count + 1) := by
  simp only [Notices.raised, h, Option.elim_some]

theorem Notices.place_eq (n : Notices) (d : Detail) :
    n.place d = { entries := upd n.entries d.kind.index (some (n.raised d)), attn := true } := by
  unfold Notices.place Notices.raised
  cases n.entries[d.kind.index] <;> rfl

theorem Notices.place_entry (n : Notices) (d : Detail) : (n.place d).entries[d.kind.index] = some (n.raised d) := by
  rw [Notices.place_eq]
  exact upd_same ..

theorem Notices.place_lineSound (n : Notices) (d : Detail) : (n.place d).LineSound := by
  have hmem : some (n.raised d) ∈ (n.place d).entries.toList := by
    rw [← n.place_entry d]
    exact Vector.mem_toList_iff.mpr (Vector.getElem_mem _)
  exact (List.any_eq_true.mpr ⟨_, hmem, rfl⟩).symm

theorem Notices.withdraw_lineSound (n : Notices) (k : NoticeKind) : (n.withdraw k).LineSound := rfl

theorem Notices.cold_lineSound : Notices.cold.LineSound := rfl

/-! ### What becomes of both pending sets (R182 to R185) -/

/-- The pending sets `c` come of `b` by raises, withdrawals, readings and routings alone. -/
inductive NoticeBoard.GoesTo (b : NoticeBoard) : NoticeBoard → Prop
  | refl : b.GoesTo b
  | placed {c : NoticeBoard} (h : b.GoesTo c) (p : Port) (d : Detail) : b.GoesTo (c.placeOn p d)
  | withdrawn {c : NoticeBoard} (h : b.GoesTo c) (p : Port) (k : NoticeKind) : b.GoesTo (c.put p ((c.get p).withdraw k))
  | read {c : NoticeBoard} (h : b.GoesTo c) (p : Port) : b.GoesTo (c.put p .cold)
  | routed {c : NoticeBoard} (h : b.GoesTo c) (r : Vector Route 9) : b.GoesTo { c with routes := r }

def NoticeBoard.LinesSound (b : NoticeBoard) : Prop := ∀ p, (b.get p).LineSound

theorem NoticeBoard.LinesSound.put {b : NoticeBoard} (h : b.LinesSound) (p : Port) {n : Notices} (hn : n.LineSound) :
    (b.put p n).LinesSound := fun q => by
  cases p <;> cases q
  · exact hn
  · exact h .ap
  · exact h .cp
  · exact hn

theorem NoticeBoard.GoesTo.linesSound {b c : NoticeBoard} (h : b.GoesTo c) (hb : b.LinesSound) : c.LinesSound := by
  induction h with
  | refl => exact hb
  | placed _ p d ih => exact ih.put p (Notices.place_lineSound _ d)
  | withdrawn _ p k ih => exact ih.put p (Notices.withdraw_lineSound _ k)
  | read _ p ih => exact ih.put p Notices.cold_lineSound
  | routed _ r ih => exact fun q => match q with
    | .cp => ih .cp
    | .ap => ih .ap

/-- A raise places the notice on the ports that its route names, if any (R182). -/
theorem NoticeBoard.GoesTo.raise {b c : NoticeBoard} (h : b.GoesTo c) (d : Detail) : b.GoesTo (c.raise d) := by
  unfold NoticeBoard.raise
  split
  · exact h.placed .cp d
  · exact h.placed .ap d
  · exact (h.placed .cp d).placed .ap d
  · exact h

/-! ### What becomes of the state's pending sets out of reset -/

/-- From `s` to `t` the part stays in reset or out of it, and the pending sets go by raises, withdrawals, readings and
routings. -/
def State.GoesTo (s t : State) : Prop := t.pins.resetN = s.pins.resetN ∧ s.notices.GoesTo t.notices

namespace State.GoesTo

variable {s t : State}

theorem refl (s : State) : s.GoesTo s := ⟨rfl, .refl⟩

theorem foldl {α : Type} {f : State → α → State} {l : List α} (hf : ∀ t a, s.GoesTo t → s.GoesTo (f t a))
    (h : s.GoesTo t) : s.GoesTo (l.foldl f t) := foldl_invariant s.GoesTo f hf l t h

/-- A choice between two operations that go as the state may. -/
theorem branch {c : Prop} {_ : Decidable c} {u v : State} (hu : s.GoesTo u) (hv : s.GoesTo v) :
    s.GoesTo (if c then u else v) := by
  split
  · exact hu
  · exact hv

/-! ### Notices, commits and impairments (R71, R150, R151, R182) -/

theorem raise {d : Detail} (h : s.GoesTo t) : s.GoesTo (t.raise d) := ⟨h.1, h.2.raise d⟩

theorem raiseOn {p : Port} {d : Detail} (h : s.GoesTo t) : s.GoesTo (t.raiseOn p d) := ⟨h.1, h.2.placed p d⟩

theorem raiseRunState (h : s.GoesTo t) : s.GoesTo t.raiseRunState := h.raise

theorem withdrawReady {p : Port} (h : s.GoesTo t) : s.GoesTo (t.withdrawReady p) := ⟨h.1, h.2.withdrawn p _⟩

theorem reportReady {n : SeqNo} (h : s.GoesTo t) : s.GoesTo (t.reportReady n) := by
  refine ⟨h.1, ?_⟩
  unfold State.reportReady
  dsimp only
  split <;> split
  · exact (h.2.placed .cp _).placed .ap _
  · exact h.2.placed .ap _
  · exact h.2.placed .cp _
  · exact h.2

theorem settleSpace (h : s.GoesTo t) : s.GoesTo t.settleSpace := by
  refine ⟨h.1, ?_⟩
  unfold State.settleSpace
  dsimp only
  split
  · exact h.2.raise _
  · exact h.2

theorem commit {b : RecordBody} (h : s.GoesTo t) : s.GoesTo (t.commit b) :=
  .settleSpace (.branch (.reportReady h) (.raise h))

theorem releaseReserve (h : s.GoesTo t) : s.GoesTo t.releaseReserve := .settleSpace h

theorem openImpairment {k : ImpKind} {x : Option Nat} {at' : Tick} (h : s.GoesTo t) :
    s.GoesTo (t.openImpairment k x at') :=
  .branch (.branch h (.branch h (.commit h))) h

theorem endImpairment {k : ImpKind} {x : Option Nat} {at' : Tick} (h : s.GoesTo t) :
    s.GoesTo (t.endImpairment k x at') := h

/-! ### Measurements (R126 to R137) -/

theorem finish {m : Fin 32} {d : MeasDef} {r : MeasResult} (h : s.GoesTo t) : s.GoesTo (t.finish m d r) :=
  .branch (.raise (.commit h)) (.commit h)

theorem judge {m : Fin 32} {d : MeasDef} {o : MeasOutcome} {v : Option Int} {stop : Option Tick} {poor : Bool} {lo hi : Tick}
    (h : s.GoesTo t) : s.GoesTo (t.judge m d o v stop poor lo hi) := by
  unfold State.judge
  split <;> exact h.finish

theorem stopMeas {m : Fin 32} {d : MeasDef} {start ref : Tick} {poor : Bool} (h : s.GoesTo t) :
    s.GoesTo (t.stopMeas m d start ref poor) := by
  unfold State.stopMeas
  dsimp only
  split
  · exact h.judge
  · split
    · exact h.finish
    · exact h.judge
  · split
    · split
      · exact h.judge
      · exact h
    · exact h

theorem takeEvent {e : MuEvent} {ref : Tick} {poor : Bool} {m : Fin 32} (h : s.GoesTo t) :
    s.GoesTo (t.takeEvent e ref poor m) := by
  unfold State.takeEvent
  dsimp only
  split
  · split
    · split <;> exact h
    · exact h
  · split
    · split
      · exact h.stopMeas
      · exact h
    · exact h
  · exact h

theorem takeEvents {w : WaitingEvent} (h : s.GoesTo t) : s.GoesTo (t.takeEvents w) :=
  foldl (fun _ _ h => h.takeEvent) h

theorem muEvent {e : MuEvent} {ref : Tick} {poor : Bool} (h : s.GoesTo t) : s.GoesTo (t.muEvent e ref poor) :=
  .branch (.branch h h.takeEvents) h

theorem settleEvents (h : s.GoesTo t) : s.GoesTo t.settleEvents := .branch (foldl (fun _ _ h => h.takeEvents) h) h

theorem resolve {c : CloseReason} {at' : Tick} {m : Fin 32} (h : s.GoesTo t) : s.GoesTo (t.resolve c at' m) := by
  unfold State.resolve
  dsimp only
  split
  · exact h
  split
  · exact h.finish
  · split
    · exact h.finish
    · exact h.finish
    · split
      · exact h.judge
      · exact h.finish
  · exact h
  · exact h

theorem resolveAll {c : CloseReason} {at' : Tick} (h : s.GoesTo t) : s.GoesTo (t.resolveAll c at') :=
  foldl (fun _ _ h => h.resolve) h

/-! ### Messages, proposals, exits and starts (R57, R61, R64, R159, R166) -/

theorem send {b : MsgBody} (h : s.GoesTo t) : s.GoesTo (t.send b) := .branch h h

theorem peerRecord {i : PeerInfo} (h : s.GoesTo t) : s.GoesTo (t.peerRecord i) := h.commit

theorem sendShared {e : SharedEvent} {dev : Nat} (h : s.GoesTo t) : s.GoesTo (t.sendShared e dev) := .branch h.send h

theorem commitIfAccepted (h : s.GoesTo t) : s.GoesTo t.commitIfAccepted := by
  unfold State.commitIfAccepted
  split
  · split
    · exact .send h
    · exact h
  · exact h

theorem propose {x : Option (Fin 64)} {m : PeerMode} (h : s.GoesTo t) : s.GoesTo (t.propose x m) :=
  .commitIfAccepted (.peerRecord (.send h))

theorem meetExit {c : ExitCause} {x : Fin 64} {m : PeerMode} {b : Tick} (h : s.GoesTo t) :
    s.GoesTo (t.meetExit c x m b).1 := by
  unfold State.meetExit
  split
  · exact h
  split
  · split <;> exact h
  split
  · exact h
  · exact .propose h

theorem meetTriggers {met : Cond → Bool} {b : Tick} (h : s.GoesTo t) : s.GoesTo (t.meetTriggers met b) :=
  .branch (foldl (fun _ _ h => .branch h.meetExit h) h) h

theorem meetStart (h : s.GoesTo t) : s.GoesTo t.meetStart := by
  unfold State.meetStart
  split
  · split
    · exact h
    split
    · exact h
    split
    · exact h.propose
    · exact h
  · exact h

/-! ### The frame and the sample link (R85 to R97) -/

theorem handSaturation {before : Vector Channel 10} {b : Tick} (h : s.GoesTo t) : s.GoesTo (t.handSaturation before b) :=
  foldl (fun _ _ h => .branch h.openImpairment (.branch h.endImpairment h)) h

theorem computeChannels {b : Tick} (h : s.GoesTo t) : s.GoesTo (t.computeChannels b) := .branch (.handSaturation h) h

theorem keepFrame {f : SampleFrame} {b : Tick} (h : s.GoesTo t) : s.GoesTo (t.keepFrame f b) := by
  unfold State.keepFrame
  dsimp only
  split
  · exact h
  split
  · exact .openImpairment h
  · exact h

theorem produceFrame {b : Tick} (h : s.GoesTo t) : s.GoesTo (t.produceFrame b) := .branch h.keepFrame h

theorem openBoundary (h : s.GoesTo t) : s.GoesTo t.openBoundary := .branch h h

theorem deliver {f : SampleFrame} {held : Bool} (h : s.GoesTo t) : s.GoesTo (t.deliver f held) := h

/-! ### The breakers (R105 to R118) -/

theorem takeHanding {b : BreakerHanding} (h : s.GoesTo t) : s.GoesTo (t.takeHanding b) := by
  unfold State.takeHanding
  split
  · exact h.meetTriggers
  · dsimp only
    split
    · exact h.muEvent.sendShared
    · exact h.muEvent
  · exact h.raise

theorem onBreakers {f : BreakerStep → BreakerStep} (h : s.GoesTo t) (hf : ∀ x, s.GoesTo x.sys → s.GoesTo (f x).sys) :
    s.GoesTo (t.onBreakers f) :=
  foldl (fun _ _ h => h.takeHanding) (hf { sys := t, handings := [] } h)

section Steps

variable {x : BreakerStep}

/-- A choice between two of BS's own operations. -/
theorem choice {c : Prop} {_ : Decidable c} {y : BreakerStep} (hx : s.GoesTo x.sys) (hy : s.GoesTo y.sys) :
    s.GoesTo (if c then x else y).sys := by
  split
  · exact hx
  · exact hy

/-- A fold of BS's own operations. -/
theorem steps {α : Type} {f : BreakerStep → α → BreakerStep} {l : List α}
    (hf : ∀ x a, s.GoesTo x.sys → s.GoesTo (f x a).sys) (h : s.GoesTo x.sys) : s.GoesTo (l.foldl f x).sys :=
  List.foldlRecOn (motive := fun x => s.GoesTo x.sys) l f h (fun x h a _ => hf x a h)

theorem forPoles {f : BreakerStep → Fin 3 → BreakerStep} {w : BitVec 3}
    (hf : ∀ x p, s.GoesTo x.sys → s.GoesTo (f x p).sys) (h : s.GoesTo x.sys) : s.GoesTo (forPoles w f x).sys :=
  steps (fun x p h => .choice (hf x p h) h) h

theorem publish {e : BreakerEvent} (h : s.GoesTo x.sys) : s.GoesTo (x.publish e).sys := h.commit

theorem publishFailure {e : BreakerEvent} {p : Fin 3} (h : s.GoesTo x.sys) : s.GoesTo (x.publishFailure e p).sys := h.commit

theorem changePole {k : Fin 4} {p : Fin 3} {y : Pole} (h : s.GoesTo x.sys) : s.GoesTo (x.changePole k p y).sys := h

theorem openPole {at' : Tick} {k : Fin 4} {p : Fin 3} (h : s.GoesTo x.sys) : s.GoesTo (x.openPole at' k p).sys :=
  .choice h.changePole.publish h

theorem announceOpen {before : Vector Pole 3} {k : Fin 4} {at' : Tick} {trip : Option Nat} (h : s.GoesTo x.sys) :
    s.GoesTo (x.announceOpen before k at' trip).sys :=
  .choice h.publish h

theorem announceClosed {before : Vector Pole 3} {k : Fin 4} {at' : Tick} (h : s.GoesTo x.sys) :
    s.GoesTo (x.announceClosed before k at').sys :=
  .choice h.publish h

theorem openInTurn {at' : Tick} {k : Fin 4} {p : Fin 3} (h : s.GoesTo x.sys) : s.GoesTo (x.openInTurn at' k p).sys :=
  .choice h h.openPole

theorem openDone {k : Fin 4} {at' : Tick} (h : s.GoesTo x.sys) : s.GoesTo (x.openDone k at').sys :=
  announceOpen (steps (fun _ _ h => h.openInTurn) h)

theorem partPole {at' : Tick} {feedback : Option Tick} {k : Fin 4} {p : Fin 3} (h : s.GoesTo x.sys) :
    s.GoesTo (x.partPole at' feedback k p).sys :=
  .choice (.openPole (.publish h)) (.publish h)

theorem partGroup {k : Fin 4} {w : BitVec 3} {at' : Tick} {feedback : Option Tick} (h : s.GoesTo x.sys) :
    s.GoesTo (x.partGroup k w at' feedback).sys :=
  announceOpen (forPoles (fun _ _ h => h.partPole) h)

theorem failToOpen {k : Fin 4} {p : Fin 3} {at' : Tick} {trip : Option Nat} {late : Bool} (h : s.GoesTo x.sys) :
    s.GoesTo (x.failToOpen k p at' trip late).sys := h.publishFailure

theorem tripPole {k : Fin 4} {n : Nat} {due taken : Tick} {p : Fin 3} (h : s.GoesTo x.sys) :
    s.GoesTo (x.tripPole k n due taken p).sys :=
  .choice (.choice h.failToOpen h) (.choice h.failToOpen h.changePole)

theorem takeTrip {k : Fin 4} {w : BitVec 3} {tFirst taken : Tick} (h : s.GoesTo x.sys) :
    s.GoesTo (x.takeTrip k w tFirst taken).sys :=
  .choice (partGroup (forPoles (fun _ _ h => h.tripPole) h)) h

theorem completePole {at' : Tick} {feedback : Option Tick} {k : Fin 4} {p : Fin 3} (h : s.GoesTo x.sys) :
    s.GoesTo (x.completePole at' feedback k p).sys := .publish h

theorem actRemembered {at' : Tick} {k : Fin 4} {p : Fin 3} (h : s.GoesTo x.sys) :
    s.GoesTo (x.actRemembered at' k p).sys := by
  unfold BreakerStep.actRemembered
  dsimp only
  split
  · exact h
  · exact tripPole h

theorem completeGroup {k : Fin 4} {w : BitVec 3} {at' : Tick} {feedback : Option Tick} (h : s.GoesTo x.sys) :
    s.GoesTo (x.completeGroup k w at' feedback).sys :=
  forPoles (fun _ _ h => h.actRemembered) (announceClosed (forPoles (fun _ _ h => h.completePole) h))

theorem openingDeadlines {k : Fin 4} {w : BitVec 3} {at' : Tick} (h : s.GoesTo x.sys) :
    s.GoesTo (x.openingDeadlines k w at').sys :=
  announceClosed (forPoles (fun _ _ h => h.changePole.failToOpen) h)

theorem closingDeadlines {k : Fin 4} {w : BitVec 3} {at' : Tick} (h : s.GoesTo x.sys) :
    s.GoesTo (x.closingDeadlines k w at').sys :=
  announceOpen (forPoles (fun _ _ h => h.changePole.publishFailure) h)

theorem takeClose {k : Fin 4} {tFirst taken : Tick} (h : s.GoesTo x.sys) : s.GoesTo (x.takeClose k tFirst taken).sys := by
  refine .choice (.choice h.publish (.choice h.publish (.choice ?feedback ?simulated))) h
  case feedback => exact closingDeadlines (forPoles (fun _ _ h => h.changePole) h)
  case simulated => exact completeGroup (forPoles (fun _ _ h => h.changePole) h)

theorem sourceEvent {y : Source} {tFirst taken : Tick} (h : s.GoesTo x.sys) :
    s.GoesTo (x.sourceEvent y tFirst taken).sys :=
  steps (fun _ _ h => steps (fun _ _ h => .choice h.takeClose h) h)
    (steps (fun _ _ h => steps (fun _ _ h => .choice h.takeTrip h) h) h)

theorem feedbackEvent {i : Fin 16} {l : Level} {tFirst taken : Tick} (h : s.GoesTo x.sys) :
    s.GoesTo (x.feedbackEvent i l tFirst taken).sys := by
  refine steps (fun x k h => .choice ?_ h) h
  split
  · exact h.partGroup
  · exact h.completeGroup

theorem failuresDue {k : Fin 4} {w : BitVec 3} {at' : Tick} (h : s.GoesTo x.sys) : s.GoesTo (x.failuresDue k w at').sys := by
  refine forPoles (fun x p h => ?_) h
  dsimp only
  split
  · exact failToOpen h
  · exact h

end Steps

theorem inputToBreakers {i : Fin 16} {l : Level} {tFirst taken : Tick} (h : s.GoesTo t) :
    s.GoesTo (t.inputToBreakers i l tFirst taken) := by
  refine .branch (h.onBreakers fun x h => feedbackEvent ?_) h
  split
  · exact h.sourceEvent
  · exact h

theorem remoteToBreakers {n : Fin 4} {i : Fin 16} {l : Level} {dev : Nat} (h : s.GoesTo t) :
    s.GoesTo (t.remoteToBreakers n i l dev) := by
  refine .branch ?_ h
  split
  · exact h.onBreakers fun _ h => h.sourceEvent
  · exact h

theorem naturalHandovers {b : Tick} (h : s.GoesTo t) : s.GoesTo (t.naturalHandovers b) :=
  .branch (.onBreakers h fun _ h => steps (fun _ _ h => h.openDone) h) h

theorem forcedHandover {c : Fin 10} {at' : Tick} (h : s.GoesTo t) : s.GoesTo (t.forcedHandover c at') := by
  unfold State.forcedHandover
  dsimp only
  split
  · exact .onBreakers h fun x h => h.publish.openDone
  · exact h

end State.GoesTo

end Sys2Proof.Machine
end

section
/-! PROOFS of what the run, the time base, the inputs and the ring do to the pending sets, out of reset (R182 to R185). -/

namespace Sys2Proof.Machine

namespace State.GoesTo

variable {s t : State}

/-! ### Parts that hold no notice -/

theorem setPr {r : Ring} (h : s.GoesTo t) : s.GoesTo (t.setPr r) := h

theorem setOut {w : Wires} (h : s.GoesTo t) : s.GoesTo { t with out := w } := h

/-! ### The end of a run (R55, R66 to R69) -/

theorem sendAbort {c : Option CloseReason} (h : s.GoesTo t) : s.GoesTo (t.sendAbort c) := .branch h h.send.peerRecord

theorem abortAtClose {c : CloseReason} (h : s.GoesTo t) : s.GoesTo (t.abortAtClose c) := .branch h.sendAbort h

theorem leaveRun {c : CloseReason} (h : s.GoesTo t) : s.GoesTo (t.leaveRun c) := .raiseRunState h

theorem closeRun {c : CloseReason} {at' : Tick} (h : s.GoesTo t) : s.GoesTo (t.closeRun c at') :=
  .leaveRun (.releaseReserve (.commit (.abortAtClose (.resolveAll h.settleEvents))))

theorem endUnstarted {silent : Bool} {after : RunState} (h : s.GoesTo t) : s.GoesTo (t.endUnstarted silent after) :=
  .raiseRunState (.releaseReserve (.branch h.sendAbort h))

theorem endRun {c : CloseReason} {silent : Bool} (h : s.GoesTo t) : s.GoesTo (t.endRun c silent) := by
  unfold State.endRun
  split
  · exact h.closeRun
  · exact h.endUnstarted
  · exact h
  · exact h

theorem emergencyStop {x : EstopSource} (h : s.GoesTo t) : s.GoesTo (t.emergencyStop x) := by
  have hended : s.GoesTo (State.endRun { t with sq := { t.sq with streamEnable := false } } .estop false) := .endRun h
  exact .raise hended

/-! ### Answers to proposals and entries (R49, R65, R167) -/

theorem trap {k : Fin 64} {c : TrapCause} {d : Option Nat} {b : Tick} (h : s.GoesTo t) : s.GoesTo (t.trap k c d b) :=
  h.settleEvents.commit.raise.closeRun

theorem acceptProposal {joint : Nat} {p : Proposal} (h : s.GoesTo t) : s.GoesTo (t.acceptProposal joint p) :=
  .peerRecord (.send h)

theorem declineProposal {joint : Nat} {p : Proposal} (h : s.GoesTo t) : s.GoesTo (t.declineProposal joint p) :=
  h.send.peerRecord

theorem deferProposal {p : Proposal} (h : s.GoesTo t) : s.GoesTo (t.deferProposal p) := .peerRecord h

theorem answerProposal {joint : Nat} {p : Proposal} (h : s.GoesTo t) : s.GoesTo (t.answerProposal joint p) := by
  unfold State.answerProposal
  dsimp only
  split
  · exact .branch h.acceptProposal h.declineProposal
  · refine .branch ?_ h
    split
    · exact h.declineProposal
    · exact .branch h.deferProposal h.acceptProposal
    · exact h
    · exact h

theorem answerAtEntry (h : s.GoesTo t) : s.GoesTo t.answerAtEntry := by
  unfold State.answerAtEntry
  split
  · exact .answerProposal h
  · split
    · exact h.acceptProposal
    · exact h
  · exact h

theorem entryActions {b : LiveBody} {boundary : Tick} (h : s.GoesTo t) : s.GoesTo (t.entryActions b boundary) := by
  refine .onBreakers h fun x h => steps (fun x k h => ?_) h
  split
  · exact h
  · exact h.takeTrip
  · exact h.takeClose

theorem recordEntry {k : Fin 64} {c : EntryCause} {b : Tick} (h : s.GoesTo t) : s.GoesTo (t.recordEntry k c b) :=
  h.commit.muEvent

theorem evaluateEntry {b : Tick} (h : s.GoesTo t) : s.GoesTo (t.evaluateEntry b) := h.meetTriggers

theorem enterLive {k : Fin 64} {b : LiveBody} {ramp : Option RampSpec} {c : EntryCause} {anchored : Bool} {boundary : Tick}
    (h : s.GoesTo t) : s.GoesTo (t.enterLive k b ramp c anchored boundary) := by
  unfold State.enterLive
  extract_lets s1 s2 s3
  have hset : s.GoesTo s2 := h
  have hentered : s.GoesTo s3 := .entryActions (.recordEntry (.branch hset.settleEvents hset))
  exact .branch hentered.evaluateEntry.closeRun hentered.answerAtEntry.evaluateEntry

theorem enterEnd {k : Fin 64} {c : EntryCause} {b : Tick} (h : s.GoesTo t) : s.GoesTo (t.enterEnd k c b) :=
  .closeRun (.recordEntry h.settleEvents)

theorem enterSlot {k : Fin 64} {c : EntryCause} {anchored : Bool} {b : Tick} (h : s.GoesTo t) :
    s.GoesTo (t.enterSlot k c anchored b) := by
  unfold State.enterSlot
  split
  · exact h.trap
  · split
    · exact h.enterLive
    · exact h.enterLive
    · exact h.enterEnd
    · exact h

/-! ### The start, transitions, limits and steps (R59, R62, R65, R90, R168, R169) -/

theorem startImpairments {lock : Bool} {b : Tick} (h : s.GoesTo t) : s.GoesTo (t.startImpairments lock b) := by
  unfold State.startImpairments
  extract_lets s1 s2
  have hchatter : s.GoesTo s1 := foldl (fun _ _ h => .branch h.openImpairment h) h
  have hlock : s.GoesTo s2 := .branch hchatter.openImpairment hchatter
  exact .branch hlock.openImpairment hlock

theorem startRun {b : Tick} (h : s.GoesTo t) : s.GoesTo (t.startRun b) := by
  unfold State.startRun
  split
  · exact h
  · exact .enterSlot (.raiseRunState (.startImpairments (.commit h)))

theorem makeTransition {b : Tick} (h : s.GoesTo t) : s.GoesTo (t.makeTransition b) := by
  unfold State.makeTransition
  split
  · split
    · exact h.enterSlot
    · exact h
  · exact h

theorem withdrawOwn (h : s.GoesTo t) : s.GoesTo t.withdrawOwn := by
  unfold State.withdrawOwn
  split
  · exact .peerRecord (.send h)
  · exact h

theorem meetLimit {k : Fin 64} {b : Tick} (h : s.GoesTo t) : s.GoesTo (t.meetLimit k b) :=
  .branch h (.branch h.withdrawOwn.enterSlot (.branch h.meetExit h.enterSlot))

theorem dwell {r : RampSpec} {p : RampProgress} {b : Tick} (h : s.GoesTo t) : s.GoesTo (t.dwell r p b) :=
  .branch h (.branch (.meetTriggers h) h)

theorem takeHeld {b : Tick} (h : s.GoesTo t) : s.GoesTo (t.takeHeld b) := by
  unfold State.takeHeld
  split
  · exact h
  · split
    · split
      · exact h.enterSlot
      · exact h
    · split
      · split
        · exact h.enterSlot
        · exact .propose h
      · exact h

theorem commitEntry {b : Tick} (h : s.GoesTo t) : s.GoesTo (t.commitEntry b) := by
  unfold State.commitEntry
  split
  · dsimp only
    split
    · exact .enterSlot (.peerRecord h)
    · exact .startRun (.peerRecord h)
    · exact .peerRecord h
  · exact h

/-! ### The frame boundary and the sample link (R4, R88, R96, R97) -/

theorem startAt {b : Tick} (h : s.GoesTo t) : s.GoesTo (t.startAt b) := .branch h.openBoundary.startRun h

theorem commitAt {b : Tick} (h : s.GoesTo t) : s.GoesTo (t.commitAt b) := .branch h.openBoundary.commitEntry h

theorem heldAt {b : Tick} (h : s.GoesTo t) : s.GoesTo (t.heldAt b) := by
  unfold State.heldAt
  split
  · split
    · exact h.openBoundary.takeHeld
    · exact h
  · exact h

theorem transitionAt {b : Tick} (h : s.GoesTo t) : s.GoesTo (t.transitionAt b) := .branch h.openBoundary.makeTransition h

theorem limitAt {b : Tick} (h : s.GoesTo t) : s.GoesTo (t.limitAt b) := by
  unfold State.limitAt
  split
  · exact h.openBoundary.meetLimit
  · exact h

theorem dwellAt {b : Tick} (h : s.GoesTo t) : s.GoesTo (t.dwellAt b) := by
  unfold State.dwellAt
  split
  · exact h.openBoundary.dwell
  · exact h

theorem dueAtBoundary {b : Tick} (h : s.GoesTo t) : s.GoesTo (t.dueAtBoundary b) :=
  h.startAt.commitAt.heldAt.transitionAt.limitAt.dwellAt

theorem showChannels (h : s.GoesTo t) : s.GoesTo t.showChannels := h

theorem frameAt {b : Tick} (h : s.GoesTo t) : s.GoesTo (t.frameAt b) := by
  unfold State.frameAt
  extract_lets s1 s2
  have hproduced : s.GoesTo s2 := .produceFrame (.computeChannels h.openBoundary)
  exact .showChannels (.naturalHandovers hproduced)

/-- A row of the frame boundary acts where one falls in the microsecond (R4). -/
theorem atBoundary {f : State → Tick → State} (h : s.GoesTo t) (hf : ∀ b, s.GoesTo (f t b)) :
    s.GoesTo (t.atBoundary f) := by
  unfold State.atBoundary
  split
  · exact hf _
  · exact h

theorem frameBoundary {slhold : Bool} (h : s.GoesTo t) : s.GoesTo (t.frameBoundary slhold) :=
  h.atBoundary fun _ => .frameAt (.settleEvents (.dueAtBoundary h))

theorem deliverNext (h : s.GoesTo t) : s.GoesTo t.deliverNext := by
  unfold State.deliverNext
  split <;> exact h

theorem releaseLink (h : s.GoesTo t) : s.GoesTo t.releaseLink := by
  have hall : s.GoesTo (State.deliverAll { t with pins := { t.pins with slhold := false } }) :=
    foldl (fun _ _ h => h.deliver) h
  unfold State.releaseLink
  dsimp only
  split <;> exact hall

/-! ### The time base (R3 to R16) -/

theorem timeRecord {c : TimeCause} {d : Discipline} {e : Option Int} {x : Option (Nat × Nat)} (h : s.GoesTo t) :
    s.GoesTo (t.timeRecord c d e x) := h.commit

theorem raiseTimeState (h : s.GoesTo t) : s.GoesTo t.raiseTimeState := h.raise

theorem handDiscipline {d : Discipline} (h : s.GoesTo t) : s.GoesTo (t.handDiscipline d) :=
  .branch h.endImpairment (.branch h.openImpairment h)

theorem changeDiscipline {d : Discipline} {e : Option Int} (h : s.GoesTo t) : s.GoesTo (t.changeDiscipline d e) :=
  .branch h (.raiseTimeState (.timeRecord h))

theorem tellDiscipline {d : Discipline} (h : s.GoesTo t) : s.GoesTo (t.tellDiscipline d) := .branch h h.handDiscipline

theorem setDiscipline {d : Discipline} {e : Option Int} (h : s.GoesTo t) : s.GoesTo (t.setDiscipline d e) :=
  h.changeDiscipline.tellDiscipline

theorem changeOffset {o : Nat} (h : s.GoesTo t) : s.GoesTo (t.changeOffset o) := h

theorem checkAtTime (h : s.GoesTo t) : s.GoesTo t.checkAtTime := .branch h.meetStart h

theorem phaseStep {e : Int} (h : s.GoesTo t) : s.GoesTo (t.phaseStep e) := .raiseTimeState (.timeRecord h)

theorem acquireMark {e : Int} (h : s.GoesTo t) : s.GoesTo (t.acquireMark e) :=
  .branch (.branch h h.phaseStep) (.branch (.changeDiscipline h) h)

theorem toAcquire {e : Option Int} (h : s.GoesTo t) : s.GoesTo (t.toAcquire e) := .changeDiscipline h

theorem dealMark {e : Int} (h : s.GoesTo t) : s.GoesTo (t.dealMark e) := by
  unfold State.dealMark
  split
  · exact h.toAcquire.acquireMark
  · exact h.acquireMark
  · split
    · exact h
    split
    · exact h.changeDiscipline
    · exact h.toAcquire
  · split
    · exact h
    · exact h.toAcquire.acquireMark

theorem relabel {e : Int} {present named : Nat} (h : s.GoesTo t) : s.GoesTo (t.relabel e present named) :=
  .branch h (.branch h (.timeRecord h))

theorem acceptMark {e : Int} {named : State → Option Nat} (h : s.GoesTo t) : s.GoesTo (t.acceptMark e named) := by
  unfold State.acceptMark
  extract_lets present tb s1 s2 s3 met s4
  have hdealt : s.GoesTo s2 := .dealMark h
  have hnamed : s.GoesTo s3 := by
    unfold s3
    split
    · exact hdealt.relabel
    · exact hdealt
  exact .branch hnamed.tellDiscipline.meetStart hnamed.tellDiscipline

theorem ppsMark (h : s.GoesTo t) : s.GoesTo t.ppsMark := .branch h.acceptMark h

theorem ringMark {dev links : Nat} (h : s.GoesTo t) : s.GoesTo (t.ringMark dev links) := .branch h.acceptMark h

theorem watchExpiry (h : s.GoesTo t) : s.GoesTo t.watchExpiry := by
  unfold State.watchExpiry
  extract_lets s1 s2
  have hheld : s.GoesTo s1 := .branch h.changeDiscipline h
  exact .tellDiscipline (.branch hheld (.raiseTimeState (.timeRecord hheld)))

theorem holdoverExpiry (h : s.GoesTo t) : s.GoesTo t.holdoverExpiry := .setDiscipline h

theorem trimCorrection (h : s.GoesTo t) : s.GoesTo t.trimCorrection := .branch h h

/-! ### The inputs (R19 to R28) -/

theorem inputToSequencer {i : Fin 16} {l : Level} (h : s.GoesTo t) : s.GoesTo (t.inputToSequencer i l) :=
  .meetTriggers (.branch h.meetStart h)

theorem inputRecord {kind : InputEventKind} {i : Fin 16} {l : Level} {b : Nat} {tFirst : Tick} {delay : Nat} (h : s.GoesTo t) :
    s.GoesTo (t.inputRecord kind i l b tFirst delay) :=
  .branch h.commit h

theorem publishInput {kind : InputEventKind} {i : Fin 16} {l : Level} {b : Nat} {tFirst at' : Tick} (h : s.GoesTo t) :
    s.GoesTo (t.publishInput kind i l b tFirst at') := .inputRecord h

theorem handInput {i : Fin 16} {l : Level} {tFirst : Stamp} {at' : Tick} (h : s.GoesTo t) :
    s.GoesTo (t.handInput i l tFirst at') :=
  .branch h.inputToSequencer.inputToBreakers.muEvent.sendShared h.inputToSequencer.inputToBreakers.muEvent

theorem acceptEdge {i : Fin 16} {at' : Tick} {c : Candidate} (h : s.GoesTo t) : s.GoesTo (t.acceptEdge i at' c) :=
  .branch (.handInput (.publishInput h)) (.branch h (.openImpairment (.inputRecord h)))

theorem rejectGlitch {i : Fin 16} {at' : Tick} {c : Candidate} (h : s.GoesTo t) : s.GoesTo (t.rejectGlitch i at' c) :=
  .branch (.commit h) h

theorem clearChatter {i : Fin 16} {at' : Tick} (h : s.GoesTo t) : s.GoesTo (t.clearChatter i at') :=
  .branch (.endImpairment (.inputRecord h)) (.handInput (.endImpairment (.publishInput (.inputRecord h))))

/-! ### The ring (R158 to R177) -/

theorem raiseRing (h : s.GoesTo t) : s.GoesTo t.raiseRing := h.raise

theorem tellSource {old : Option (Fin 4)} (h : s.GoesTo t) : s.GoesTo (t.tellSource old) := .branch h h.peerRecord.raiseRing

theorem judgeSource (h : s.GoesTo t) : s.GoesTo t.judgeSource := .tellSource h

theorem tellRing {old : RingState} (h : s.GoesTo t) : s.GoesTo (t.tellRing old) := .branch h h.peerRecord.raiseRing

theorem reachUp (h : s.GoesTo t) : s.GoesTo t.reachUp :=
  .judgeSource (.branch h.endImpairment (.raiseRing (.peerRecord h)))

theorem leaveUp (h : s.GoesTo t) : s.GoesTo t.leaveUp := by
  unfold State.leaveUp
  extract_lets s1 s2
  have hopened : s.GoesTo s2 := .branch h.judgeSource.openImpairment h.judgeSource
  exact .branch hopened hopened.endRun

theorem settleBeforeLoss (h : s.GoesTo t) : s.GoesTo t.settleBeforeLoss := .branch h.settleEvents h

theorem setRing {r : RingState} (h : s.GoesTo t) : s.GoesTo (t.setRing r) := by
  unfold State.setRing
  extract_lets pr s1
  have htold : s.GoesTo s1 := .tellRing h.settleBeforeLoss
  exact .branch h (.branch htold.reachUp (.branch htold.leaveUp htold))

theorem sendBeacon {at' : Tick} (h : s.GoesTo t) : s.GoesTo (t.sendBeacon at') := .send (.setPr (.setRing h))

theorem dropMember {n : Fin 4} (h : s.GoesTo t) : s.GoesTo (t.dropMember n) := .branch (.setRing h) h

theorem keepBeacon {n : Fin 4} {b : Beacon} (h : s.GoesTo t) : s.GoesTo (t.keepBeacon n b) := .branch (.setRing h) h

theorem clearRemoteTime {n : Fin 4} {q : TimeQuality} (h : s.GoesTo t) : s.GoesTo (t.clearRemoteTime n q) := .branch h h

theorem judgeRemoteTime {n : Fin 4} {q : TimeQuality} (h : s.GoesTo t) : s.GoesTo (t.judgeRemoteTime n q) :=
  .branch (.openImpairment h) h.clearRemoteTime

theorem markReturn {b : Beacon} (h : s.GoesTo t) : s.GoesTo (t.markReturn b) := .branch h h

theorem beaconReturned {b : Beacon} (h : s.GoesTo t) : s.GoesTo (t.beaconReturned b) := h.markReturn.judgeSource

theorem beaconArrives {n : Fin 4} {hop : Nat} {b : Beacon} (h : s.GoesTo t) : s.GoesTo (t.beaconArrives n hop b) :=
  .branch h.keepBeacon.clearRemoteTime.judgeSource.ringMark h.keepBeacon.clearRemoteTime.judgeSource

theorem keepWaiting {p : Proposal} (h : s.GoesTo t) : s.GoesTo (t.keepWaiting p) := by
  unfold State.keepWaiting
  split
  · exact h
  · split <;> exact h

theorem crossed {joint : Nat} {own p : Proposal} (h : s.GoesTo t) : s.GoesTo (t.crossed joint own p) :=
  .branch (.branch h.peerRecord h) (.branch (.acceptProposal (.branch h.peerRecord h)) h)

theorem proposalFree {joint : Nat} {p : Proposal} (h : s.GoesTo t) : s.GoesTo (t.proposalFree joint p) :=
  .branch h.keepWaiting h.answerProposal

theorem proposeArrives {joint : Nat} {p : Proposal} (h : s.GoesTo t) : s.GoesTo (t.proposeArrives joint p) := by
  unfold State.proposeArrives
  split
  · exact h
  split
  · split
    · exact h.declineProposal
    · exact h
  split
  · exact h.keepWaiting
  split
  · exact h.crossed
  · exact h.crossed
  · split
    · exact .proposalFree h
    · exact h
  · exact h.proposalFree

theorem acceptArrives {n : Fin 4} {joint : Nat} {proposer : Fin 4} {number : BitVec 8} (h : s.GoesTo t) :
    s.GoesTo (t.acceptArrives n joint proposer number) :=
  .branch (.commitIfAccepted h) h

theorem abortProposal (h : s.GoesTo t) : s.GoesTo t.abortProposal := by
  unfold State.abortProposal
  split
  · exact h.closeRun
  · exact h.endUnstarted
  · exact h
  · exact h

theorem declineArrives {joint : Nat} {proposer : Fin 4} {number : BitVec 8} (h : s.GoesTo t) :
    s.GoesTo (t.declineArrives joint proposer number) :=
  .branch h.abortProposal h

theorem commitArrives {n : Fin 4} {joint : Nat} {number : BitVec 8} {tc : Nat} (h : s.GoesTo t) :
    s.GoesTo (t.commitArrives n joint number tc) :=
  .branch h h

theorem dropWaiting {n : Fin 4} {number : BitVec 8} (h : s.GoesTo t) : s.GoesTo (t.dropWaiting n number) := by
  unfold State.dropWaiting
  split
  · split
    · exact .peerRecord h
    · exact h
  · exact h

theorem withdrawArrives {n : Fin 4} {joint : Nat} {number : BitVec 8} (h : s.GoesTo t) :
    s.GoesTo (t.withdrawArrives n joint number) := by
  unfold State.withdrawArrives
  split
  · exact h
  split
  · exact h.dropWaiting
  split
  · exact .peerRecord h
  split
  · exact .peerRecord h
  · exact h.dropWaiting

theorem remoteInput {n : Fin 4} {i : Fin 16} {l : Level} {dev : Nat} {q : TimeQuality} (h : s.GoesTo t) :
    s.GoesTo (t.remoteInput n i l dev q) := .muEvent (.remoteToBreakers (.meetTriggers h))

theorem eventArrives {n : Fin 4} {e : SharedEvent} {dev : Nat} {q : TimeQuality} (h : s.GoesTo t) :
    s.GoesTo (t.eventArrives n e dev q) := by
  unfold State.eventArrives
  refine .peerRecord ?_
  split
  · exact h.judgeRemoteTime.remoteInput
  · exact h.judgeRemoteTime

theorem abortArrives {n : Fin 4} {joint : Nat} {c : Option CloseReason} (h : s.GoesTo t) :
    s.GoesTo (t.abortArrives n joint c) :=
  .branch h.settleEvents.peerRecord.endRun h

/-- A message of the part's own is removed or is a beacon's return; another node's is forwarded and acted on (R159). -/
theorem handle {m : Message} {act : State → State} (h : s.GoesTo t) (hact : ∀ u, s.GoesTo u → s.GoesTo (act u)) :
    s.GoesTo (t.handle m act) := by
  unfold State.handle
  split
  · split
    · split
      case h_1 => exact h.beaconReturned
      all_goals exact h
    · exact hact _ h
  · exact h

theorem lightGained (h : s.GoesTo t) : s.GoesTo t.lightGained := .branch (.setRing h) h

theorem lightLost (h : s.GoesTo t) : s.GoesTo t.lightLost := .setRing h

end State.GoesTo

end Sys2Proof.Machine
end

section
/-! PROOFS of what the commands do to the pending sets (R181 to R188), and of chapter 10's two statements: the attention lines
(R183) and RAISE TEST NOTICE (R186). -/

namespace Sys2Proof.Machine

namespace State.GoesTo

variable {s t : State}

/-! ### Commands of the time base, the inputs and the ring (R5, R6, R13, R14, R20, R30, R31, R158) -/

/-- A command's choice between two answers. -/
theorem answer {c : Prop} {_ : Decidable c} {a b : Answer} (ha : s.GoesTo a.st) (hb : s.GoesTo b.st) :
    s.GoesTo (if c then a else b).st := by
  split
  · exact ha
  · exact hb

theorem readPicture {suits : Bool} {b : ReplyBody} (h : s.GoesTo t) : s.GoesTo (t.readPicture suits b).st := .answer h h

theorem setReference {x : Option Nat} (h : s.GoesTo t) : s.GoesTo (t.setReference x).st := by
  unfold State.setReference
  split
  · exact h
  · exact .answer h (.answer (.setDiscipline h) (.setDiscipline h))

theorem clearSuspect (h : s.GoesTo t) : s.GoesTo t.clearSuspect.st := .answer (.raiseTimeState (.timeRecord h)) h

theorem setDeviceTime {dev : Nat} (h : s.GoesTo t) : s.GoesTo (t.setDeviceTime dev) := .checkAtTime (.timeRecord h)

theorem setTime {x : Option (Nat × Nat)} (h : s.GoesTo t) : s.GoesTo (t.setTime x).st := by
  unfold State.setTime
  split
  · exact h
  · exact .answer h (.answer h (.answer h.setDeviceTime (.answer h h)))

theorem setTrim {x : Option Int} (h : s.GoesTo t) : s.GoesTo (t.setTrim x).st := by
  unfold State.setTrim
  split
  · exact h
  · exact .answer h (.answer h h)

theorem configureInput {a : Option InputArgs} (h : s.GoesTo t) : s.GoesTo (t.configureInput a).st := by
  refine .answer ?_ h
  split <;> exact h

theorem configureOutput {a : Option (Nat × OutputFuncArg)} (h : s.GoesTo t) : s.GoesTo (t.configureOutput a).st := by
  refine .answer ?_ h
  split
  · exact h
  · split
    · exact .answer h h
    · exact h

theorem setRestPattern {x : Option (BitVec 8)} (h : s.GoesTo t) : s.GoesTo (t.setRestPattern x).st := by
  unfold State.setRestPattern
  split <;> exact h

theorem configureRing {a : Option (Nat × Nat)} (h : s.GoesTo t) : s.GoesTo (t.configureRing a).st := by
  refine .answer ?_ h
  split
  · exact h
  · split
    · exact .setRing (.setPr h)
    · exact h

/-! ### Commands of the state table, the channels, the breakers and the measurements (R42 to R47, R76 to R79, R102, R123) -/

theorem writeState {p : Port} {slot : Option Nat} {r : Option RecordArg} (h : s.GoesTo t) :
    s.GoesTo (t.writeState p slot r).st := by
  refine .answer h ?_
  split
  · exact h
  · refine .answer h ?_
    split
    · exact h
    · split
      · exact h
      · exact h
      · rw [State.wrote_st]
        exact h

theorem clearState {p : Port} {slot : Option Nat} {suits : Bool} (h : s.GoesTo t) :
    s.GoesTo (t.clearState p slot suits).st := by
  refine .answer h ?_
  split
  · exact h
  · refine .answer h (.answer h ?_)
    split <;> exact h

theorem readState {slot : Option Nat} (h : s.GoesTo t) : s.GoesTo (t.readState slot).st := by
  unfold State.readState
  split <;> exact h

theorem declare {c : Fin 10} {d : Declaration} (h : s.GoesTo t) : s.GoesTo (t.declare c d) := by
  unfold State.declare
  extract_lets old channel s1 s2
  have hforced : s.GoesTo s2 := .branch (.openImpairment h) h
  exact .branch hforced hforced.raise

theorem declareChannel {p : Port} {a : Option (Nat × DeclArg)} (h : s.GoesTo t) : s.GoesTo (t.declareChannel p a).st := by
  refine .answer h ?_
  split
  · exact h
  · exact h.declare

theorem setCalibration {p : Port} {a : Option CalArgs} (h : s.GoesTo t) : s.GoesTo (t.setCalibration p a).st := by
  refine .answer h (.answer h ?_)
  split <;> exact h

theorem configureBreaker {a : Option BreakerArgs} (h : s.GoesTo t) : s.GoesTo (t.configureBreaker a).st := by
  refine .answer ?_ h
  split <;> exact h

theorem defineMeasurement {a : Option MeasArgs} (h : s.GoesTo t) : s.GoesTo (t.defineMeasurement a).st := by
  refine .answer ?_ h
  split <;> exact h

theorem windowExpiry {m : Fin 32} {expiry : Tick} (h : s.GoesTo t) : s.GoesTo (t.windowExpiry m expiry) := by
  unfold State.windowExpiry
  split
  · exact h.judge
  · exact h

/-! ### Commands of the run (R53 to R70) -/

theorem createRun {p : Port} {o : RunOptions} (h : s.GoesTo t) : s.GoesTo (t.createRun p o) := by
  unfold State.createRun
  extract_lets s1
  have hsettled : s.GoesTo s1 := .settleSpace h
  exact .raiseRunState hsettled

theorem armRun {p : Port} {a : Option ArmArgs} (h : s.GoesTo t) : s.GoesTo (t.armRun p a).st := by
  refine .answer h (.answer h ?_)
  split
  · exact h
  · exact .answer h (.answer h (.answer h h.createRun))

theorem disarmRun {p : Port} {suits : Bool} (h : s.GoesTo t) : s.GoesTo (t.disarmRun p suits).st :=
  .answer h (.answer h (.answer h (.answer h h.endUnstarted)))

theorem startCommand {p : Port} {suits : Bool} (h : s.GoesTo t) : s.GoesTo (t.startCommand p suits).st :=
  .answer h (.answer h (.answer h (.answer h h.meetStart)))

theorem advanceRun {p : Port} {suits : Bool} (h : s.GoesTo t) : s.GoesTo (t.advanceRun p suits).st := by
  refine .answer h (.answer h ?_)
  split
  · exact h
  · exact .answer h h.meetExit

theorem abortRun {suits : Bool} (h : s.GoesTo t) : s.GoesTo (t.abortRun suits).st := .answer h (.answer h h.endRun)

theorem stopCommand {p : Port} {suits : Bool} (h : s.GoesTo t) : s.GoesTo (t.stopCommand p suits).st :=
  .answer h h.emergencyStop

theorem withEstopN {high : Bool} (h : s.GoesTo t) : s.GoesTo (t.withEstopN high) := h

theorem clearInhibit {suits : Bool} (h : s.GoesTo t) : s.GoesTo (t.clearInhibit suits).st :=
  .answer h (.answer h (.answer h (.raiseRunState h)))

/-! ### Commands of the store (R150 to R155) -/

theorem moveReader {p : Port} {rd : Reader} (h : s.GoesTo t) : s.GoesTo (t.moveReader p rd) := .settleSpace h

theorem readyIfBeyond {p : Port} (h : s.GoesTo t) : s.GoesTo (t.readyIfBeyond p) := .branch h.raiseOn h

theorem unreadyIfDone {p : Port} (h : s.GoesTo t) : s.GoesTo (t.unreadyIfDone p) := .branch h.withdrawReady h

theorem readRecords {p : Port} {size : Option Nat} (h : s.GoesTo t) : s.GoesTo (t.readRecords p size).st := by
  unfold State.readRecords
  split
  · exact h
  · exact .answer h h.moveReader.unreadyIfDone

theorem rewindReader {p : Port} {suits : Bool} (h : s.GoesTo t) : s.GoesTo (t.rewindReader p suits).st :=
  .answer h.moveReader.readyIfBeyond h

theorem seekReader {p : Port} {seq : Option SeqNo} (h : s.GoesTo t) : s.GoesTo (t.seekReader p seq).st := by
  unfold State.seekReader
  split
  · exact h
  · exact .answer h.moveReader.readyIfBeyond.unreadyIfDone h

theorem subscribeReader {p : Port} {suits : Bool} (h : s.GoesTo t) : s.GoesTo (t.subscribeReader p suits).st :=
  .answer (.answer h h.moveReader.readyIfBeyond) h

theorem unsubscribeReader {p : Port} {suits : Bool} (h : s.GoesTo t) : s.GoesTo (t.unsubscribeReader p suits).st :=
  .answer (.answer h.moveReader.withdrawReady h) h

theorem eraseStore {suits : Bool} (h : s.GoesTo t) : s.GoesTo (t.eraseStore suits).st :=
  .answer h (.answer h (.withdrawReady (.withdrawReady (.settleSpace h))))

/-! ### Commands of the port interface (R184 to R186, R188) -/

theorem readNotices {p : Port} {suits : Bool} (h : s.GoesTo t) : s.GoesTo (t.readNotices p suits).st :=
  have hread : s.GoesTo { t with notices := t.notices.put p Notices.cold } := ⟨h.1, h.2.read p⟩
  .answer hread h

theorem routeNotice {a : Option (Nat × Nat)} (h : s.GoesTo t) : s.GoesTo (t.routeNotice a).st := by
  unfold State.routeNotice
  split
  · exact h
  · split
    · exact ⟨h.1, h.2.routed _⟩
    · exact h

theorem raiseTest {p : Port} {v : Option (BitVec 32)} (h : s.GoesTo t) : s.GoesTo (t.raiseTest p v).st := by
  unfold State.raiseTest
  split
  · exact h
  · exact h.raiseOn

/-- A RESTART empties both pending sets and keeps the routes (R188). -/
theorem warmStart (h : s.GoesTo t) : s.GoesTo t.warmStart := ⟨h.1, ((h.2.read .cp).read .ap).routed t.notices.routes⟩

theorem reportWarmRing {before : Ring} (h : s.GoesTo t) : s.GoesTo (t.reportWarmRing before) := h.tellRing.tellSource

theorem restartPart {suits : Bool} (h : s.GoesTo t) : s.GoesTo (t.restartPart suits).st :=
  .answer h.endRun.warmStart.commit.reportWarmRing h

/-! ### The frame of a transaction (R178 to R181, R190) -/

theorem noFields {suits : Bool} {a : Answer} (h : s.GoesTo t) (ha : s.GoesTo a.st) : s.GoesTo (t.noFields suits a).st :=
  .answer ha h

/-- Whatever command the code of a frame names: case `h_n` is that of code `n`, and the remaining ones answer a picture (R190). -/
theorem command {p : Port} {e : Bool} {code : Nat} {payload : List Byte} {a : Answer} (h : s.GoesTo t)
    (ha : t.command p e code payload = some a) : s.GoesTo a.st := by
  unfold State.command at ha
  dsimp only at ha
  split at ha <;> cases ha
  case h_1 => exact h.setReference
  case h_2 => exact h.noFields h.clearSuspect
  case h_4 => exact h.setTime
  case h_5 => exact h.setTrim
  case h_6 => exact h.configureInput
  case h_7 => exact h.configureOutput
  case h_8 => exact h.setRestPattern
  case h_10 => exact h.writeState
  case h_11 => exact h.clearState
  case h_12 => exact h.readState
  case h_13 => exact h.declareChannel
  case h_14 => exact h.setCalibration
  case h_16 => exact h.configureBreaker
  case h_18 => exact h.defineMeasurement
  case h_20 => exact h.armRun
  case h_21 => exact h.disarmRun
  case h_22 => exact h.startCommand
  case h_23 => exact h.advanceRun
  case h_24 => exact h.abortRun
  case h_25 => exact h.stopCommand
  case h_27 => exact h.withEstopN.clearInhibit
  case h_28 => exact h.subscribeReader
  case h_29 => exact h.unsubscribeReader
  case h_30 => exact h.readRecords
  case h_31 => exact h.rewindReader
  case h_32 => exact h.seekReader
  case h_33 => exact h.eraseStore
  case h_34 => exact h.configureRing
  case h_36 => exact h.readNotices
  case h_37 => exact h.routeNotice
  case h_38 => exact h.raiseTest
  case h_39 => exact h.withEstopN.restartPart
  all_goals exact h.readPicture

/-- An answer given joins its port's queue, and leaves the notices to the command (R181). -/
theorem delivered {a : Answer} {p : Port} {tag : Byte} (ha : s.GoesTo a.st) : s.GoesTo (a.deliver p tag) := ha

theorem judgeFrame {p : Port} {e : Bool} {l : List Byte} (h : s.GoesTo t) : s.GoesTo (t.judgeFrame p e l) := by
  unfold State.judgeFrame
  split
  · exact .delivered h
  · refine .branch h ?_
    split
    next ha => exact .delivered (h.command ha)
    next => exact .delivered h

theorem judge' {p : Port} {e : Bool} {l : List Byte} (h : s.GoesTo t) : s.GoesTo (t.judge' p e l) := by
  refine .branch ?_ h.judgeFrame
  split
  · exact .branch h h
  · exact h

theorem beginTransaction {p : Port} (h : s.GoesTo t) : s.GoesTo (t.beginTransaction p) := by
  unfold State.beginTransaction
  dsimp only
  split <;> exact h

theorem settleTransaction {p : Port} {o : Outgoing} {l : List Byte} {e : Bool} (h : s.GoesTo t) :
    s.GoesTo (t.settleTransaction p o l e) := by
  unfold State.settleTransaction
  split
  · exact h
  · exact .judge' h

end State.GoesTo

/-! ### The attention lines at each row (R183, R187) -/

/-- Out of reset the lines follow the pending sets wherever these go. -/
theorem State.LinesSound.goesTo {s t : State} (h : s.LinesSound) (hout : s.pins.resetN = true) (g : s.GoesTo t) :
    t.LinesSound := by
  have hboard : s.notices.LinesSound := fun p => by
    have hp := h p
    rwa [hout, Bool.true_and] at hp
  intro p
  rw [g.1, hout, Bool.true_and]
  exact g.2.linesSound hboard p

namespace State.LinesSound

variable {s : State}

/-- In reset a row that acts out of reset alone does nothing (R187). -/
theorem awake {f : State → State} (h : s.LinesSound) (g : s.GoesTo (f s)) : (s.awake f).LinesSound := by
  unfold State.awake
  split
  next hout => exact h.goesTo hout g
  next => exact h

/-- A command is taken, lost at a full queue, or not seen in reset (R180, R187). -/
theorem takeCommand {p : Port} {tag : Byte} {f : State → Answer} (h : s.LinesSound) (g : s.GoesTo (f s).st) :
    (s.takeCommand p tag f).LinesSound := by
  unfold State.takeCommand
  split
  · exact h
  next hout =>
    split
    · exact h
    · exact h.goesTo (by simpa using hout) (.delivered g)

/-- A message of a row's type is acted on; any other is left alone (R193). -/
theorem receive {type : Nat} {bytes : List Byte} {act : Message → State → State} (h : s.LinesSound)
    (hact : ∀ m u, s.GoesTo u → s.GoesTo (act m u)) : (s.receive type bytes act).LinesSound := by
  refine .awake h ?_
  split
  · exact .branch (.handle (.refl s) (hact _)) (.refl s)
  · exact .refl s

/-- The end of a transaction sends its bytes in reset too; the frame taken in is judged out of reset alone (R178, R187). -/
theorem endTransaction {p : Port} {x : Transfer} {e : Bool} (h : s.LinesSound) : (s.endTransaction p x e).LinesSound := by
  refine .awake h ?_
  split
  · exact .refl _
  · exact .settleTransaction (.refl _)

/-- RESET_N releases both lines (R187). -/
theorem holdReset (s : State) : s.holdReset.LinesSound := fun p => by
  cases p <;> rfl

/-- A cold start empties both pending sets and releases their lines, then commits START_UP (R187). -/
theorem coldStart (s : State) (e : Bool) : (s.coldStart e).LinesSound := by
  unfold State.coldStart
  extract_lets pins s1 s2 s3
  have hcold : s1.LinesSound := fun p => by cases p <;> rfl
  have hcommitted : s1.GoesTo s2 := .commit (.refl s1)
  have hstarted : s1.GoesTo s3 := .setOut hcommitted
  exact hcold.goesTo rfl (.branch hstarted hstarted.emergencyStop)

end State.LinesSound

/-- Every row keeps the lines: commands, events that act out of reset alone, messages, and the two rows of reset itself (R183). -/
theorem exec_keeps_lines (i : Instr) {s : State} (h : s.LinesSound) : ∃ t, exec i s = .next t ∧ t.LinesSound := by
  have g : s.GoesTo s := .refl s
  cases i with
  | setReference p tag source => exact ⟨_, rfl, h.takeCommand g.setReference⟩
  | clearTimeSuspect p tag => exact ⟨_, rfl, h.takeCommand g.clearSuspect⟩
  | readTime p tag => exact ⟨_, rfl, h.takeCommand g.readPicture⟩
  | setTime p tag seconds micros => exact ⟨_, rfl, h.takeCommand g.setTime⟩
  | setTrim p tag trim => exact ⟨_, rfl, h.takeCommand g.setTrim⟩
  | configureInput p tag a => exact ⟨_, rfl, h.takeCommand g.configureInput⟩
  | configureOutput p tag output f => exact ⟨_, rfl, h.takeCommand g.configureOutput⟩
  | setRestPattern p tag pattern => exact ⟨_, rfl, h.takeCommand g.setRestPattern⟩
  | readInputs p tag => exact ⟨_, rfl, h.takeCommand g.readPicture⟩
  | writeState p tag slot r => exact ⟨_, rfl, h.takeCommand g.writeState⟩
  | clearState p tag slot => exact ⟨_, rfl, h.takeCommand g.clearState⟩
  | readState p tag slot => exact ⟨_, rfl, h.takeCommand g.readState⟩
  | declareChannel p tag channel d => exact ⟨_, rfl, h.takeCommand g.declareChannel⟩
  | setCalibration p tag a => exact ⟨_, rfl, h.takeCommand g.setCalibration⟩
  | readChannels p tag => exact ⟨_, rfl, h.takeCommand g.readPicture⟩
  | configureBreaker p tag a => exact ⟨_, rfl, h.takeCommand g.configureBreaker⟩
  | readBreakers p tag => exact ⟨_, rfl, h.takeCommand g.readPicture⟩
  | defineMeasurement p tag a => exact ⟨_, rfl, h.takeCommand g.defineMeasurement⟩
  | readMeasurements p tag => exact ⟨_, rfl, h.takeCommand g.readPicture⟩
  | arm p tag a => exact ⟨_, rfl, h.takeCommand g.armRun⟩
  | disarm p tag => exact ⟨_, rfl, h.takeCommand g.disarmRun⟩
  | start p tag => exact ⟨_, rfl, h.takeCommand g.startCommand⟩
  | advance p tag => exact ⟨_, rfl, h.takeCommand g.advanceRun⟩
  | abort p tag => exact ⟨_, rfl, h.takeCommand g.abortRun⟩
  | emergencyStop p tag => exact ⟨_, rfl, h.takeCommand g.stopCommand⟩
  | readRun p tag => exact ⟨_, rfl, h.takeCommand g.readPicture⟩
  | clearInhibit p tag estopN => exact ⟨_, rfl, h.takeCommand g.withEstopN.clearInhibit⟩
  | subscribe p tag => exact ⟨_, rfl, h.takeCommand g.subscribeReader⟩
  | unsubscribe p tag => exact ⟨_, rfl, h.takeCommand g.unsubscribeReader⟩
  | readRecords p tag size => exact ⟨_, rfl, h.takeCommand g.readRecords⟩
  | rewind p tag => exact ⟨_, rfl, h.takeCommand g.rewindReader⟩
  | seek p tag seq => exact ⟨_, rfl, h.takeCommand g.seekReader⟩
  | eraseStore p tag => exact ⟨_, rfl, h.takeCommand g.eraseStore⟩
  | configureRing p tag node enable => exact ⟨_, rfl, h.takeCommand g.configureRing⟩
  | readRing p tag => exact ⟨_, rfl, h.takeCommand g.readPicture⟩
  | readNotices p tag => exact ⟨_, rfl, h.takeCommand g.readNotices⟩
  | routeNotice p tag kind route => exact ⟨_, rfl, h.takeCommand g.routeNotice⟩
  | raiseTestNotice p tag value => exact ⟨_, rfl, h.takeCommand g.raiseTest⟩
  | restart p tag estopN => exact ⟨_, rfl, h.takeCommand g.withEstopN.restartPart⟩
  | transactionStart p => exact ⟨_, rfl, h.awake g.beginTransaction⟩
  | transactionEnd p transfer estopN => exact ⟨_, rfl, h.endTransaction⟩
  | resetAssert => exact ⟨_, rfl, .holdReset s⟩
  | coldStart estopN => exact ⟨_, rfl, .coldStart s estopN⟩
  | estopNFall => exact ⟨_, rfl, .awake h (.emergencyStop (.refl _))⟩
  | referenceMark => exact ⟨_, rfl, h.awake g.ppsMark⟩
  | trimCorrection => exact ⟨_, rfl, h.awake g.trimCorrection⟩
  | markWatchExpiry => exact ⟨_, rfl, h.awake (.branch g.watchExpiry g)⟩
  | holdoverExpiry => exact ⟨_, rfl, h.awake (.branch g.holdoverExpiry g)⟩
  | frameBoundary slhold => exact ⟨_, rfl, h.awake g.frameBoundary⟩
  | sampleFrameDelivery => exact ⟨_, rfl, h.awake g.deliverNext⟩
  | slholdRelease => exact ⟨_, rfl, .awake h (.releaseLink (.refl _))⟩
  | inputSample levels =>
    refine ⟨_, rfl, h.awake ?_⟩
    split <;> exact g
  | debounceAccept n =>
    refine ⟨_, rfl, h.awake ?_⟩
    split
    · exact g.acceptEdge
    · exact g
  | glitch n =>
    refine ⟨_, rfl, h.awake ?_⟩
    split
    · exact g.rejectGlitch
    · exact g
  | chatterClear n =>
    refine ⟨_, rfl, h.awake ?_⟩
    split
    · exact g.clearChatter
    · exact g
  | atTimeMet => exact ⟨_, rfl, h.awake g.checkAtTime⟩
  | runStart => exact ⟨_, rfl, h.awake (g.atBoundary fun _ => g.startAt)⟩
  | transition => exact ⟨_, rfl, h.awake (g.atBoundary fun _ => g.transitionAt)⟩
  | timeLimit => exact ⟨_, rfl, h.awake (g.atBoundary fun _ => g.limitAt)⟩
  | rampStep => exact ⟨_, rfl, h.awake (g.atBoundary fun _ => g.dwellAt)⟩
  | poleParted k =>
    refine ⟨_, rfl, h.awake ?_⟩
    split
    · exact g.onBreakers fun _ hx => hx.partGroup
    · exact g
  | poleClosed k =>
    refine ⟨_, rfl, h.awake ?_⟩
    split
    · exact g.onBreakers fun _ hx => hx.completeGroup
    · exact g
  | failToOpen k =>
    refine ⟨_, rfl, h.awake ?_⟩
    split
    · exact g.onBreakers fun _ hx => hx.failuresDue
    · exact g
  | openingDeadline k =>
    refine ⟨_, rfl, h.awake ?_⟩
    split
    · exact g.onBreakers fun _ hx => hx.openingDeadlines
    · exact g
  | failToClose k =>
    refine ⟨_, rfl, h.awake ?_⟩
    split
    · exact g.onBreakers fun _ hx => hx.closingDeadlines
    · exact g
  | forcedInterruption c =>
    refine ⟨_, rfl, h.awake ?_⟩
    split
    · exact g.forcedHandover
    · exact g
  | windowExpiry m =>
    refine ⟨_, rfl, h.awake ?_⟩
    split
    · exact g.windowExpiry
    · exact g
  | beaconSend =>
    refine ⟨_, rfl, h.awake ?_⟩
    split
    · exact g.sendBeacon
    · exact g
  | memberTimeout n => exact ⟨_, rfl, h.awake (.branch g.dropMember g)⟩
  | lightGained => exact ⟨_, rfl, .awake h (.lightGained (.refl _))⟩
  | lightLost => exact ⟨_, rfl, .awake h (.lightLost (.refl _))⟩
  | beaconReceived bytes =>
    refine ⟨_, rfl, h.receive fun _ _ hu => ?_⟩
    split
    · exact hu.beaconArrives
    · exact hu
  | proposeReceived bytes =>
    refine ⟨_, rfl, h.receive fun _ _ hu => ?_⟩
    split
    · exact hu.proposeArrives
    · exact hu
  | acceptReceived bytes =>
    refine ⟨_, rfl, h.receive fun _ _ hu => ?_⟩
    split
    · exact hu.acceptArrives
    · exact hu
  | declineReceived bytes =>
    refine ⟨_, rfl, h.receive fun _ _ hu => ?_⟩
    split
    · exact hu.declineArrives
    · exact hu
  | commitReceived bytes =>
    refine ⟨_, rfl, h.receive fun _ _ hu => ?_⟩
    split
    · exact hu.commitArrives
    · exact hu
  | withdrawReceived bytes =>
    refine ⟨_, rfl, h.receive fun _ _ hu => ?_⟩
    split
    · exact hu.withdrawArrives
    · exact hu
  | eventReceived bytes =>
    refine ⟨_, rfl, h.receive fun _ _ hu => ?_⟩
    split
    · exact hu.eventArrives
    · exact hu
  | abortReceived bytes =>
    refine ⟨_, rfl, h.receive fun _ _ hu => ?_⟩
    split
    · exact hu.abortArrives
    · exact hu
  | proposalTimeout => exact ⟨_, rfl, h.awake (.branch g.abortProposal g)⟩
  | commitEntry => exact ⟨_, rfl, h.awake (g.atBoundary fun _ => g.commitAt)⟩
  | heldTriggerTaken => exact ⟨_, rfl, h.awake (g.atBoundary fun _ => g.heldAt)⟩

/-- A step runs the front of the queue, an event of the clock, or a microsecond in which no row acts (R1, R2). -/
theorem step_keeps_lines {s : State} (h : s.LinesSound) : ∃ t, step s = .next t ∧ t.LinesSound := by
  unfold step
  split
  · exact exec_keeps_lines _ h
  · unfold State.idle
    split
    · split
      · exact exec_keeps_lines _ h
      · split
        · exact exec_keeps_lines _ h
        · exact ⟨_, rfl, h⟩
    · exact ⟨_, rfl, h⟩

/-- Settles O13. Out of reset a step changes the pending sets by raises, withdrawals, readings and routings alone, each of which
sets the line by its set; in reset it leaves both lines high. -/
theorem everyStepKeepsTheAttentionLines : Obligations.EveryStepKeepsTheAttentionLines := by
  intro s t h hstep
  obtain ⟨u, hu, hlines⟩ := step_keeps_lines h
  obtain rfl : u = t := Host.Outcome.next.inj (hu.symm.trans hstep)
  exact hlines

/-! ### RAISE TEST NOTICE (R186) -/

/-- TEST is the last kind in priority order (R182, R184). -/
theorem Notices.list_getLast {n : Notices} {e : NoticeEntry} (h : n.entries[10] = some e) : n.list.getLast? = some e := by
  have hlast : n.entries.toList.getLast? = some (some e) := by
    rw [List.getLast?_eq_getElem?, Vector.length_toList, Vector.getElem?_toList, Vector.getElem?_eq_getElem (by decide)]
    exact congrArg some h
  obtain ⟨before, hbefore⟩ := List.getLast?_eq_some_iff.mp hlast
  rw [Notices.list, hbefore, List.filterMap_append]
  exact List.getLast?_concat

theorem exec_raiseTestNotice_taken {s : State} {p : Port} (h : s.Takes p) (tag : Byte) (v : BitVec 32) :
    exec (.raiseTestNotice p tag v) s =
      .next (State.replied { s with notices := s.notices.put p ((s.notices.get p).place (.test v)) } p tag .ok .empty) :=
  congrArg Host.Outcome.next (State.takeCommand_taken h tag _)

/-- READ NOTICES answers the port's entries in priority order and empties its set (R184). -/
theorem exec_readNotices_taken {s : State} {p : Port} (h : s.Takes p) (tag : Byte) :
    exec (.readNotices p tag) s =
      .next (State.replied { s with notices := s.notices.put p .cold } p tag .ok (.notices (s.notices.get p).list)) :=
  congrArg Host.Outcome.next (State.takeCommand_taken h tag _)

theorem State.replied_queue (s : State) (p : Port) (tag : Byte) (c : ResultCode) (b : ReplyBody) :
    ((s.replied p tag c b).port p).queue = (s.port p).queue ++ [{ tag := tag, code := c, body := b }] :=
  State.pushReply_queue s p _

/-- Where two places of the queue are free, the next command is taken too (R180). -/
theorem State.replied_takes {s : State} {p : Port} (hout : s.pins.resetN = true) (hroom : (s.port p).queue.length < 3)
    (tag : Byte) (c : ResultCode) (b : ReplyBody) : (s.replied p tag c b).Takes p := by
  refine ⟨hout, ?_⟩
  rw [State.replied_queue, List.length_append]
  exact Nat.succ_lt_succ hroom

/-- A pending TEST is the last entry that READ NOTICES answers (R184). -/
theorem exec_readNotices_test {s : State} {p : Port} {e : NoticeEntry} (h : s.Takes p)
    (hpending : (s.notices.get p).entries[10] = some e) (tag : Byte) :
    ∃ t l, exec (.readNotices p tag) s = .next t ∧
      (t.port p).queue.getLast? = some { tag := tag, code := .ok, body := .notices l } ∧ l.getLast? = some e := by
  refine ⟨_, _, exec_readNotices_taken h tag, ?_, Notices.list_getLast hpending⟩
  rw [State.replied_queue]
  exact List.getLast?_concat

theorem NoticeBoard.put_get (b : NoticeBoard) (p : Port) (n : Notices) : (b.put p n).get p = n := by
  cases p <;> rfl

/-- Settles O58. The reply of RAISE TEST NOTICE takes one place of the queue, so READ NOTICES is taken where two were free. -/
theorem testNoticeIsRaised : Obligations.TestNoticeIsRaised := by
  intro s p tag v htakes
  refine ⟨(s.notices.get p).raised (.test v), (s.notices.get p).place (.test v), rfl, Notices.raised_new (d := .test v),
    fun _ => Notices.raised_again (d := .test v), Notices.place_eq _ _,
    exec_raiseTestNotice_taken htakes tag v, fun hroom tag' => ?_⟩
  have hfree : ((s.raiseOn p (.test v)).replied p tag .ok .empty).Takes p := State.replied_takes htakes.1 hroom ..
  refine exec_readNotices_test hfree ?_ tag'
  exact (congrArg (fun n : Notices => n.entries[10]) (NoticeBoard.put_get ..)).trans (Notices.place_entry _ (.test v))

end Sys2Proof.Machine
end
